-- ==== Sys2Proof/Word.lean ====
section
/-! DEFINITION. The value types of TFCORE: bytes, 32-bit words, the four-register group and the 256-word table
(spec/00_scope.md R6, R12, R17, R21; spec/10_state.md R49, R50). Types only: the arithmetic and the byte order stand in
Sys2Proof/Machine/Operands.lean. -/

namespace Sys2Proof

/-- A byte, also an element of GF(256) (R12, R16). -/
abbrev Byte := BitVec 8

/-- A 32-bit unsigned word (R6, R12). -/
abbrev Word := BitVec 32

/-- A 4-bit value of the Q permutations (41_keyschedule.md R180). -/
abbrev Nibble := BitVec 4

/-- A 9-bit reduction polynomial over GF(2) (R16). -/
abbrev Poly := BitVec 9

/-- A group of four 32-bit registers NAME0 to NAME3 (R17), or the four words of a 16-byte block. -/
structure Quad where
  w0 : Word
  w1 : Word
  w2 : Word
  w3 : Word
  deriving DecidableEq, Repr, Inhabited

/-- The four-register group that holds zero. -/
def Quad.zero : Quad := ⟨0, 0, 0, 0⟩

/-- Register `i` of a group. -/
def Quad.get (q : Quad) (i : Fin 4) : Word :=
  match i with
  | 0 => q.w0
  | 1 => q.w1
  | 2 => q.w2
  | 3 => q.w3

/-- The group with register `i` written. -/
def Quad.set (q : Quad) (i : Fin 4) (v : Word) : Quad :=
  match i with
  | 0 => { q with w0 := v }
  | 1 => { q with w1 := v }
  | 2 => { q with w2 := v }
  | 3 => { q with w3 := v }

/-- The words of a group, in register order. -/
def Quad.toList (q : Quad) : List Word := [q.w0, q.w1, q.w2, q.w3]

/-- A table of 256 words, indexed by a byte (10_state.md R49, R50). -/
abbrev Table := Vector Word 256

/-- Four tables of 256 words: the S-boxes of a key context, or the MDS tables (R49, R50). -/
abbrev Tables := Vector Table 4

/-- Entry `x` of a table. -/
def Table.entry (t : Table) (x : Byte) : Word := t[x.toNat]'(x.isLt)

/-- Entry `x` of table `j`. -/
def Tables.entry (t : Tables) (j : Fin 4) (x : Byte) : Word := Table.entry t[j] x

/-- The table whose entry `x` is `f x`. -/
def Table.build (f : Byte → Word) : Table := ⟨⟨(List.range 256).map fun x => f (BitVec.ofNat 8 x)⟩, by simp⟩

/-- The four tables whose entry `x` of table `j` is `f j x`. -/
def Tables.build (f : Fin 4 → Byte → Word) : Tables :=
  #v[Table.build (f 0), Table.build (f 1), Table.build (f 2), Table.build (f 3)]

/-- The four tables with every entry zero. -/
def Tables.zero : Tables := Vector.replicate 4 (Vector.replicate 256 0)

end Sys2Proof
end

