-- ==== Sys2Proof/Config.lean ====
section
/-! DEFINITION. What an implementation fixes (the parameters of spec/00_scope.md R7 to R9) and the free values of the spec:
ENTROPY (R10), LATENCY (R11), the buffer contents at reset (spec/10_state.md R51), the results of a tainted command
(spec/44_system.md R311) and reads of a running command's write set (spec/70_reset_and_hazards.md R368). A free value is an
opaque constant applied to a counter of State: nothing in Lean can evaluate it, so what is proved holds for every value. -/

namespace Sys2Proof

/-- The parameters of one TFCORE (00_scope.md R7 to R9). They stand in State, where no step writes them, so that every
statement holds for every choice of them (log entry 1). -/
structure Params where
  /-- BUF_BYTES is `16 * (4 + extraBlocks)`: every multiple of 16 from 64 to 16384, and no other number (R7). -/
  extraBlocks : Fin 1021
  /-- Whether the IV generator of IVGEN exists (R8). -/
  hasRng : Bool
  /-- Whether the host can read the SUBKEY, SWORD and SBOX windows (R9). -/
  readback : Bool
  deriving DecidableEq, Repr

/-- CAPS.BUF_BLOCKS: the size of a buffer in 16-byte blocks (R7, 10_state.md R34). -/
def Params.bufBlocks (p : Params) : Nat := p.extraBlocks.val + 4

/-- `BUF_BYTES` (R7). -/
def Params.bufBytes (p : Params) : Nat := 16 * p.bufBlocks

/-- The defaults of R7 to R9: BUF_BYTES = 1024, HAS_RNG = 1, READBACK = 1. -/
def Params.default : Params := { extraBlocks := 60, hasRng := true, readback := true }

/-- ENTROPY (R10): byte `i` of the draw made as event `n`. Under no law. -/
opaque Config.entropy : Nat → Nat → BitVec 8

/-- LATENCY (R11): how many HOST turns pass before the command issued as event `n` completes. Finite, unbounded. -/
opaque Config.latency : Nat → Nat

/-- The byte that a buffer address holds from reset number `n` until it is written (10_state.md R51). -/
opaque Config.bufByte : Nat → Nat → BitVec 8

/-- The unconstrained word that the location at a host-bus offset receives, or is read as, in event `n`
(44_system.md R311, 70_reset_and_hazards.md R368). -/
opaque Config.freeWord : Nat → Nat → BitVec 32

/-- The unconstrained byte that a buffer address receives in event `n` (44_system.md R311). -/
opaque Config.freeByte : Nat → Nat → BitVec 8

/-- The unconstrained ERRCODE, 0 to 6, of a tainted completion in event `n` (44_system.md R311). -/
opaque Config.freeCode : Nat → Fin 7

end Sys2Proof
end

