-- ==== Sys2Proof/Syntax.lean ====
section
/-! DEFINITION. The command words of TFCORE, one constructor per row of spec/opcode_table.json
(spec/30_encoding.md R125). A command has no operand fields (R124): GFMUL's POLY and HFUNC's K select the row. -/

namespace Sys2Proof

/-- The 21 legal commands (R125). -/
inductive Instr where
  | nop        -- NOP, 44_system.md R312
  | gfmulRs    -- GFMUL.RS, 40_field.md R152
  | gfmulMds   -- GFMUL.MDS, 40_field.md R152
  | mdsgen     -- MDSGEN, 40_field.md R155
  | rsred      -- RSRED, 40_field.md R159
  | hfuncK2    -- HFUNC.K2, 41_keyschedule.md R185
  | hfuncK3    -- HFUNC.K3, 41_keyschedule.md R185
  | hfuncK4    -- HFUNC.K4, 41_keyschedule.md R185
  | keysched   -- KEYSCHED, 41_keyschedule.md R191
  | keyclr     -- KEYCLR, 41_keyschedule.md R192
  | gfunc      -- GFUNC, 41_keyschedule.md R193
  | encblk     -- ENCBLK, 42_block.md R236
  | decblk     -- DECBLK, 42_block.md R237
  | cbcenc     -- CBCENC, 43_chaining.md R266
  | cbcdec     -- CBCDEC, 43_chaining.md R267
  | chaininit  -- CHAININIT, 43_chaining.md R264
  | ivgen      -- IVGEN, 43_chaining.md R265
  | pad        -- PAD, 43_chaining.md R268
  | unpad      -- UNPAD, 43_chaining.md R269
  | msgenc     -- MSGENC, 43_chaining.md R270
  | msgdec     -- MSGDEC, 43_chaining.md R271
  deriving DecidableEq, Repr

end Sys2Proof
end

