-- ==== Sys2Proof/WellFormed.lean ====
section
/-! DEFINITION. Which commands exist in a TFCORE with given parameters (spec/30_encoding.md R126, R127). -/

namespace Sys2Proof

/-- A command is well-formed for the parameters `p` when it is legal there: every row of the opcode table, but IVGEN only
with HAS_RNG = 1 (R126). -/
def Instr.wf (p : Params) (i : Instr) : Bool :=
  match i with
  | .ivgen => p.hasRng
  | .nop | .gfmulRs | .gfmulMds | .mdsgen | .rsred | .hfuncK2 | .hfuncK3 | .hfuncK4 | .keysched | .keyclr | .gfunc
  | .encblk | .decblk | .cbcenc | .cbcdec | .chaininit | .pad | .unpad | .msgenc | .msgdec => true

end Sys2Proof
end

