-- ==== Sys2Proof/Decode.lean ====
section
/-! DEFINITION. The command decoder, total on every 32-bit word, and the encoder (spec/30_encoding.md R120 to R129). -/

namespace Sys2Proof

/-- Why a word is ILLEGAL: the classes of R127. All of them complete with ILLEGAL_CMD (R126). -/
inductive Illegal where
  /-- RSV = w[31:12] is not 0. -/
  | reservedBits
  /-- OP is 0x0E, 0x0F or 0x14 to 0xFF. -/
  | unknownOp
  /-- ARG is not one the opcode's format allows (R121 to R123). -/
  | badArg
  /-- IVGEN where HAS_RNG = 0. -/
  | noRng
  deriving DecidableEq, Repr

/-- What the decoder answers for a word: a command, or the verdict ILLEGAL with its class (R126). -/
inductive Decoded where
  | command (i : Instr)
  | illegal (why : Illegal)
  deriving DecidableEq, Repr

/-- The command of a decoder's answer, if there is one. -/
def Decoded.instr? (d : Decoded) : Option Instr :=
  match d with
  | .command i => some i
  | .illegal _ => none

/-- The field OP of a command word (R120). -/
def cmdOp (w : BitVec 32) : BitVec 8 := w.extractLsb' 0 8

/-- The field ARG of a command word (R120). -/
def cmdArg (w : BitVec 32) : BitVec 4 := w.extractLsb' 8 4

/-- The field RSV of a command word (R120). -/
def cmdRsv (w : BitVec 32) : BitVec 20 := w.extractLsb' 12 20

/-- Format C0: ARG must be 0 (R121). -/
def decodeC0 (arg : BitVec 4) (i : Instr) : Decoded :=
  if arg = 0 then .command i else .illegal .badArg

/-- Format CP: ARG[0] is POLY, ARG[3:1] must be 0 (R122). -/
def decodeCP (arg : BitVec 4) : Decoded :=
  match arg.toNat with
  | 0 => .command .gfmulRs
  | 1 => .command .gfmulMds
  | _ => .illegal .badArg

/-- Format CH: ARG[2:0] is K, one of 2, 3 and 4, and ARG[3] must be 0 (R123). -/
def decodeCH (arg : BitVec 4) : Decoded :=
  match arg.toNat with
  | 2 => .command .hfuncK2
  | 3 => .command .hfuncK3
  | 4 => .command .hfuncK4
  | _ => .illegal .badArg

/-- The opcode map (R125): the opcode and ARG of a word whose RSV is 0. -/
def decodeOp (op : BitVec 8) (arg : BitVec 4) : Decoded :=
  match op.toNat with
  | 0x00 => decodeC0 arg .nop
  | 0x01 => decodeCP arg
  | 0x02 => decodeC0 arg .mdsgen
  | 0x03 => decodeC0 arg .rsred
  | 0x04 => decodeCH arg
  | 0x05 => decodeC0 arg .keysched
  | 0x06 => decodeC0 arg .keyclr
  | 0x07 => decodeC0 arg .gfunc
  | 0x08 => decodeC0 arg .encblk
  | 0x09 => decodeC0 arg .decblk
  | 0x0A => decodeC0 arg .cbcenc
  | 0x0B => decodeC0 arg .cbcdec
  | 0x0C => decodeC0 arg .chaininit
  | 0x0D => decodeC0 arg .ivgen
  | 0x10 => decodeC0 arg .pad
  | 0x11 => decodeC0 arg .unpad
  | 0x12 => decodeC0 arg .msgenc
  | 0x13 => decodeC0 arg .msgdec
  | _ => .illegal .unknownOp

/-- The table of R125 alone: the command of a word, whatever the parameters. -/
def decodeWord (w : BitVec 32) : Decoded :=
  if cmdRsv w = 0 then decodeOp (cmdOp w) (cmdArg w) else .illegal .reservedBits

/-- `decode` of R126: the table, and IVGEN only where HAS_RNG = 1. -/
def decode (p : Params) (w : BitVec 32) : Decoded :=
  match decodeWord w with
  | .command i => if i.wf p then .command i else .illegal .noRng
  | .illegal why => .illegal why

/-- The word of a command (R125). -/
def encode (i : Instr) : BitVec 32 :=
  match i with
  | .nop       => 0x00000000
  | .gfmulRs   => 0x00000001
  | .gfmulMds  => 0x00000101
  | .mdsgen    => 0x00000002
  | .rsred     => 0x00000003
  | .hfuncK2   => 0x00000204
  | .hfuncK3   => 0x00000304
  | .hfuncK4   => 0x00000404
  | .keysched  => 0x00000005
  | .keyclr    => 0x00000006
  | .gfunc     => 0x00000007
  | .encblk    => 0x00000008
  | .decblk    => 0x00000009
  | .cbcenc    => 0x0000000A
  | .cbcdec    => 0x0000000B
  | .chaininit => 0x0000000C
  | .ivgen     => 0x0000000D
  | .pad       => 0x00000010
  | .unpad     => 0x00000011
  | .msgenc    => 0x00000012
  | .msgdec    => 0x00000013

/-- The command word that a table row's `nbits` bits `w` make: a command is one 32-bit word (R120), and every bit above
`nbits` is 0. -/
def tableWord (nbits w : Nat) : BitVec 32 := BitVec.ofNat 32 (w % 2 ^ nbits)

/-- The command the decoder reads from a row of spec/opcode_table.json whose bits are `w`. A row longer than one word is
no command (R129). IVGEN's row is read with HAS_RNG = 1, as its note in the table says. -/
def decodeTableWord (nbits w : Nat) : Option Instr :=
  if w % 2 ^ nbits < 2 ^ 32 then (decode Params.default (tableWord nbits w)).instr? else none

end Sys2Proof
end

