-- ==== Sys2Proof/Machine/State.lean ====
section
/-! DEFINITION. Every piece of state the spec gives TFCORE (spec/10_state.md), the HOST's accesses still to come, the faults
and refusals, and the state after power-on reset (spec/70_reset_and_hazards.md R360, R361). -/

namespace Sys2Proof.Machine

/-- The faults of a step. Each is a bus error (20_memory.md R82): raised by the HOST's step, never by a command (R94), and
changing no state. -/
inductive Fault where
  /-- A HOST access that is not 4 bytes wide (R81). Raised by `busLocate`. Safe: the spec calls it a fault of the HOST. -/
  | busWidth
  /-- A HOST access at an offset that is not a multiple of 4 (R81). Raised by `busLocate`. Safe, as above. -/
  | busAlign
  /-- A HOST access to an unmapped offset (R88). Raised by `busLocate`. Safe, as above. -/
  | busUnmapped
  deriving DecidableEq, Repr

/-- The refusals of a step. -/
inductive Refusal where
  /-- A command with no meaning in this model. Raised by no arm of `exec`: every command has its meaning. Safe. -/
  | notModelled (mnemonic : String)
  deriving DecidableEq, Repr

/-- The error codes of STATUS.ERRCODE (60_exceptions.md R321). Codes 7 to 15 are never produced. -/
inductive ErrCode where
  | none | illegalCmd | keysize | blocksize | padding | nokey | length
  deriving DecidableEq, Repr

/-- One HOST access, a line of a host script (30_encoding.md R130): its width in bytes, its offset in the window and, for
a write, its data. `wait` is the loop of R131, the one control flow of a host script. -/
inductive HostOp where
  | write (width : Nat) (offset : BitVec 16) (value : Word)
  | read (width : Nat) (offset : BitVec 16)
  | wait
  deriving DecidableEq, Repr

/-- The byte memory of the machine: the bytes of INBUF and OUTBUF (20_memory.md R84) that have been written since the last
reset, by rising address. A byte that is not listed holds the value drawn for it at that reset (10_state.md R51). -/
abbrev Memory := List Host.Cell

/-- The key context (10_state.md R49). -/
structure KeyCtx where
  /-- KEY_VALID, STATUS[9]. -/
  valid : Bool
  /-- KEYSZ, STATUS[11:10]. -/
  keysz : BitVec 2
  /-- SUBKEY[0..39]. -/
  subkey : Vector Word 40
  /-- SWORD[0..3]. -/
  sword : Quad
  /-- SBOX[0..3][0..255]. -/
  sbox : Tables
  deriving DecidableEq, Repr

/-- No key context: KEY_VALID = 0, KEYSZ = 0 and every array 0 (R49, 41_keyschedule.md R192). -/
def KeyCtx.empty : KeyCtx :=
  { valid := false, keysz := 0, subkey := Vector.replicate 40 0, sword := Quad.zero, sbox := Tables.zero }

/-- The state of TFCORE and of the HOST that drives it. -/
structure State where
  /-- The parameters (00_scope.md R7 to R9). Written by no step. -/
  params : Params
  /-- CTRL.IRQEN (R35). -/
  irqen : Bool
  /-- STATUS.BUSY (R36). -/
  busy : Bool
  /-- STATUS.DONE (R36). -/
  done : Bool
  /-- STATUS.ERR (R36). -/
  err : Bool
  /-- STATUS.OVERRUN (R36). -/
  overrun : Bool
  /-- STATUS.ERRCODE (R36, 60_exceptions.md R321). -/
  errcode : ErrCode
  /-- LASTCMD (R37). -/
  lastcmd : Word
  /-- PENDING, the command word being run (R52). -/
  pending : Word
  /-- TAINT (R53). -/
  taint : Bool
  /-- OPA (R38). -/
  opa : Word
  /-- OPB (R38). -/
  opb : Word
  /-- RESULT (R39). -/
  result : Word
  /-- KEYLEN (R40). -/
  keylen : Word
  /-- MSGLEN (R41). -/
  msglen : Word
  /-- OUTLEN (R42). -/
  outlen : Word
  /-- HL0 to HL3 (R43). -/
  hl : Quad
  /-- KEY0 to KEY7 (R44). -/
  key : Vector Word 8
  /-- IV0 to IV3 (R45). -/
  iv : Quad
  /-- CHAIN0 to CHAIN3 (R46). -/
  chain : Quad
  /-- DIN0 to DIN3 (R47). -/
  din : Quad
  /-- DOUT0 to DOUT3 (R48). -/
  dout : Quad
  /-- The key context (R49). -/
  ctx : KeyCtx
  /-- MDS_VALID, STATUS[8] (R50). -/
  mdsValid : Bool
  /-- MDS[0..3][0..255] (R50). -/
  mds : Tables
  /-- INBUF and OUTBUF (R51). -/
  mem : Memory
  /-- The model's own: the HOST accesses still to come, in program order (20_memory.md R95; log entry 2). -/
  host : List HostOp
  /-- The model's own: the values the HOST's reads have returned, newest first (log entry 2). -/
  reads : List Word
  /-- The model's own: HOST turns left before the CORE completes the pending command (00_scope.md R11; log entry 3). -/
  countdown : Nat
  /-- The model's own: how many free values have been drawn (log entry 6). -/
  draws : Nat
  /-- The model's own: how many soft resets have happened (70_reset_and_hazards.md R360; log entry 4). -/
  resets : Nat
  deriving DecidableEq, Repr

/-- The state right after power-on of a TFCORE with parameters `p`: the table of R361. PENDING is a don't care there
(log entry 5). The buffers list nothing: each byte is the draw of reset number 0 (log entry 4). -/
def State.powerOn (p : Params) : State :=
  { params := p, irqen := false, busy := false, done := false, err := false, overrun := false, errcode := .none,
    lastcmd := 0, pending := 0, taint := false, opa := 0, opb := 0, result := 0, keylen := 0, msglen := 0, outlen := 0,
    hl := Quad.zero, key := Vector.replicate 8 0, iv := Quad.zero, chain := Quad.zero, din := Quad.zero, dout := Quad.zero,
    ctx := KeyCtx.empty, mdsValid := false, mds := Tables.zero, mem := [], host := [], reads := [], countdown := 0,
    draws := 0, resets := 0 }

/-- The state after power-on with the default parameters of 00_scope.md R7 to R9. -/
def State.reset : State := State.powerOn Params.default

end Sys2Proof.Machine
end

