-- ==== Sys2Proof/Machine/Operands.lean ====
section
/-! DEFINITION. The operand forms of TFCORE: the byte order (spec/00_scope.md R13 to R15, spec/20_memory.md R89), the word
arithmetic (R14), the four-register blocks (R17), and the locations of the host-bus window with their offsets
(spec/10_state.md R32, spec/20_memory.md R83 to R88). -/

namespace Sys2Proof.Machine

/-- `byte_j(w) = w[8j+7:8j]` (R13). -/
def byteOf (j : Nat) (w : Word) : Byte := w.extractLsb' (8 * j) 8

/-- A field value placed at bit `lo` of a word, every other bit 0 (R12). -/
def place (n : Nat) (v : BitVec n) (lo : Nat) : Word := v.setWidth 32 <<< lo

/-- `word(b0, b1, b2, b3) = b0 | b1<<8 | b2<<16 | b3<<24` (R13). -/
def wordOf (b0 b1 b2 b3 : Byte) : Word := place 8 b0 0 ||| place 8 b1 8 ||| place 8 b2 16 ||| place 8 b3 24

/-- `bytesLE` of one word (R13). -/
def wordBytes (w : Word) : List Byte := [byteOf 0 w, byteOf 1 w, byteOf 2 w, byteOf 3 w]

/-- `ROL(w, n)` (R14). -/
def rol (w : Word) (n : Nat) : Word := w.rotateLeft n

/-- `ROR(w, n)` (R14). -/
def ror (w : Word) (n : Nat) : Word := w.rotateRight n

/-- `2·b` on words (R14). -/
def double (b : Word) : Word := b <<< 1

/-- `blk(NAME)` as bytes: `bytesLE` of the four words (R17). -/
def quadBytes (q : Quad) : List Byte := wordBytes q.w0 ++ wordBytes q.w1 ++ wordBytes q.w2 ++ wordBytes q.w3

/-- `wordsLE` of a 16-byte string (R13, R17). Bytes that a shorter string lacks are 0, which no rule uses. -/
def quadOfBytes (bs : List Byte) : Quad :=
  let b (i : Nat) : Byte := bs.getD i 0
  ⟨wordOf (b 0) (b 1) (b 2) (b 3), wordOf (b 4) (b 5) (b 6) (b 7),
    wordOf (b 8) (b 9) (b 10) (b 11), wordOf (b 12) (b 13) (b 14) (b 15)⟩

/-- `xor16` of two blocks (R15), word by word. -/
def quadXor (a b : Quad) : Quad := ⟨a.w0 ^^^ b.w0, a.w1 ^^^ b.w1, a.w2 ^^^ b.w2, a.w3 ^^^ b.w3⟩

/-- The 16-byte blocks of a byte string whose length is a multiple of 16 (43_chaining.md R262, R263). A rest of fewer than
16 bytes is left out, which no rule uses. -/
def blocksOf (bs : List Byte) : List Quad :=
  match bs with
  | b0 :: b1 :: b2 :: b3 :: b4 :: b5 :: b6 :: b7 :: b8 :: b9 :: b10 :: b11 :: b12 :: b13 :: b14 :: b15 :: rest =>
    ⟨wordOf b0 b1 b2 b3, wordOf b4 b5 b6 b7, wordOf b8 b9 b10 b11, wordOf b12 b13 b14 b15⟩ :: blocksOf rest
  | _ => []

/-- The bytes of a list of blocks, in order. -/
def blocksBytes (qs : List Quad) : List Byte := qs.flatMap quadBytes

/-- Word `i` of KEY0 to KEY7, 0 beyond them (which no rule uses): also the key word `M[i]`, since the key is packed
little-endian (10_state.md R44, 41_keyschedule.md R186). -/
def keyWord (key : Vector Word 8) (i : Nat) : Word := key.toList.getD i 0

/-- The list `L = (HL0, ..., HL(K-1))` of HFUNC (R43). -/
def hlList (hl : Quad) (k : Nat) : List Word := hl.toList.take k

/-- A location of the host-bus window: a register, an entry of a table window, or word `m` of a buffer window. -/
inductive Loc where
  | id | caps | ctrl | status | cmd | opa | opb | result | keylen | msglen | outlen
  | hl (i : Fin 4) | key (i : Fin 8) | iv (i : Fin 4) | chain (i : Fin 4) | din (i : Fin 4) | dout (i : Fin 4)
  | subkey (i : Fin 40) | sword (i : Fin 4) | sbox (j : Fin 4) (x : Fin 256) | mds (j : Fin 4) (x : Fin 256)
  | inbuf (m : Nat) | outbuf (m : Nat)
  deriving DecidableEq, Repr

/-- The first byte address of INBUF (20_memory.md R84). -/
def inbufBase : Nat := 0x4000

/-- The first byte address of OUTBUF (20_memory.md R84). -/
def outbufBase : Nat := 0x8000

/-- The offset of a location (10_state.md R32, 20_memory.md R83 to R87). -/
def locOffset (l : Loc) : Nat :=
  match l with
  | .id => 0x000
  | .caps => 0x004
  | .ctrl => 0x008
  | .status => 0x00C
  | .cmd => 0x010
  | .opa => 0x014
  | .opb => 0x018
  | .result => 0x01C
  | .keylen => 0x020
  | .msglen => 0x024
  | .outlen => 0x028
  | .hl i => 0x030 + 4 * i.val
  | .key i => 0x040 + 4 * i.val
  | .iv i => 0x060 + 4 * i.val
  | .chain i => 0x070 + 4 * i.val
  | .din i => 0x080 + 4 * i.val
  | .dout i => 0x090 + 4 * i.val
  | .subkey i => 0x1000 + 4 * i.val
  | .sword i => 0x1100 + 4 * i.val
  | .sbox j x => 0x2000 + 0x400 * j.val + 4 * x.val
  | .mds j x => 0x3000 + 0x400 * j.val + 4 * x.val
  | .inbuf m => inbufBase + 4 * m
  | .outbuf m => outbufBase + 4 * m

/-- The locations of the register region (R32, R83), by word index. Index 11 (offset 0x02C) is unmapped. -/
def regLoc (k : Nat) : Option Loc :=
  match k with
  | 0 => some .id
  | 1 => some .caps
  | 2 => some .ctrl
  | 3 => some .status
  | 4 => some .cmd
  | 5 => some .opa
  | 6 => some .opb
  | 7 => some .result
  | 8 => some .keylen
  | 9 => some .msglen
  | 10 => some .outlen
  | 12 => some (.hl 0) | 13 => some (.hl 1) | 14 => some (.hl 2) | 15 => some (.hl 3)
  | 16 => some (.key 0) | 17 => some (.key 1) | 18 => some (.key 2) | 19 => some (.key 3)
  | 20 => some (.key 4) | 21 => some (.key 5) | 22 => some (.key 6) | 23 => some (.key 7)
  | 24 => some (.iv 0) | 25 => some (.iv 1) | 26 => some (.iv 2) | 27 => some (.iv 3)
  | 28 => some (.chain 0) | 29 => some (.chain 1) | 30 => some (.chain 2) | 31 => some (.chain 3)
  | 32 => some (.din 0) | 33 => some (.din 1) | 34 => some (.din 2) | 35 => some (.din 3)
  | 36 => some (.dout 0) | 37 => some (.dout 1) | 38 => some (.dout 2) | 39 => some (.dout 3)
  | _ => none

/-- The location at word index `k` of the window (offset `4·k`), or none where the offset is unmapped (R83 to R88). -/
def wordLoc (p : Params) (k : Nat) : Option Loc :=
  if k < 0x400 then regLoc k
  else if h : 0x400 ≤ k ∧ k < 0x400 + 40 then some (.subkey ⟨k - 0x400, by omega⟩)
  else if h : 0x440 ≤ k ∧ k < 0x440 + 4 then some (.sword ⟨k - 0x440, by omega⟩)
  else if h : 0x800 ≤ k ∧ k < 0xC00 then
    some (.sbox ⟨(k - 0x800) / 256, by omega⟩ ⟨(k - 0x800) % 256, by omega⟩)
  else if h : 0xC00 ≤ k ∧ k < 0x1000 then
    some (.mds ⟨(k - 0xC00) / 256, by omega⟩ ⟨(k - 0xC00) % 256, by omega⟩)
  else if 0x1000 ≤ k ∧ 4 * (k - 0x1000) < p.bufBytes then some (.inbuf (k - 0x1000))
  else if 0x2000 ≤ k ∧ 4 * (k - 0x2000) < p.bufBytes then some (.outbuf (k - 0x2000))
  else none

/-- The location of a HOST access of `width` bytes at `offset`, or its bus error (R81, R82, R88). -/
def busLocate (p : Params) (width : Nat) (offset : BitVec 16) : Except Fault Loc :=
  if width ≠ 4 then .error .busWidth
  else if offset.toNat % 4 ≠ 0 then .error .busAlign
  else
    match wordLoc p (offset.toNat / 4) with
    | some l => .ok l
    | none => .error .busUnmapped

/-- The read-only locations (20_memory.md R92). -/
def Loc.readOnly (l : Loc) : Bool :=
  match l with
  | .id | .caps | .status | .result | .outlen | .dout _ | .subkey _ | .sword _ | .sbox _ _ | .mds _ _ | .outbuf _ => true
  | .ctrl | .cmd | .opa | .opb | .keylen | .msglen | .hl _ | .key _ | .iv _ | .chain _ | .din _ | .inbuf _ => false

/-- A HOST access is well-formed when it is 4 bytes wide, aligned and mapped (R81, R88). -/
def HostOp.wf (p : Params) (op : HostOp) : Bool :=
  match op with
  | .write width offset _ => (busLocate p width offset).isOk
  | .read width offset => (busLocate p width offset).isOk
  | .wait => true

end Sys2Proof.Machine
end

