-- ==== Sys2Proof/Machine/Gf.lean ====
section
/-! DEFINITION. The functions of the field family: multiplication in GF(256), the MDS table entries and the RS reduction
(spec/40_field.md R150 to R158). -/

namespace Sys2Proof.Machine

/-- The polynomial 0x14D of the RS field (R150, R157). -/
def polyRs : Poly := 0x14D

/-- The polynomial 0x169 of the MDS tables (R153). -/
def polyMds : Poly := 0x169

/-- The doubling `t <- t << 1`, reduced by `P` when bit 8 is set (R150, R151). -/
def xtime (P : Poly) (t : Byte) : Byte :=
  let d : BitVec 9 := (t.setWidth 9) <<< 1
  (if d.getLsbD 8 then d ^^^ P else d).setWidth 8

/-- One turn of the loop of R150 for bit `i` of `b`: accumulate, then double. -/
def gfStep (P : Poly) (b : Byte) (pt : Byte × Byte) (i : Nat) : Byte × Byte :=
  (if b.getLsbD i then pt.1 ^^^ pt.2 else pt.1, xtime P pt.2)

/-- `gfmul_P(a, b)` (R150). -/
def gfmul (P : Poly) (a b : Byte) : Byte := ((List.range 8).foldl (gfStep P b) (0, a)).1

/-- Row `i` of the MDS matrix (R153). -/
def mdsRow (i : Fin 4) : List Byte :=
  match i with
  | 0 => [0x01, 0xEF, 0x5B, 0x5B]
  | 1 => [0x5B, 0xEF, 0xEF, 0x01]
  | 2 => [0xEF, 0x5B, 0x01, 0xEF]
  | 3 => [0xEF, 0x01, 0xEF, 0x5B]

/-- `mdsEntry(j, x)` (R154): column `j` of the MDS matrix times `x`, row `i` in byte `i`. -/
def mdsEntry (j : Fin 4) (x : Byte) : Word :=
  let m (i : Fin 4) : Byte := gfmul polyMds ((mdsRow i).getD j.val 0) x
  wordOf (m 0) (m 1) (m 2) (m 3)

/-- The MDS tables, a constant of the hardware (10_state.md R50, R154). -/
def mdsTables : Tables := Tables.build mdsEntry

/-- Row `i` of the RS matrix (R157). -/
def rsRow (i : Fin 4) : List Byte :=
  match i with
  | 0 => [0x01, 0xA4, 0x55, 0x87, 0x5A, 0x58, 0xDB, 0x9E]
  | 1 => [0xA4, 0x56, 0x82, 0xF3, 0x1E, 0xC6, 0x68, 0xE5]
  | 2 => [0x02, 0xA1, 0xFC, 0xC1, 0x47, 0xAE, 0x3D, 0x19]
  | 3 => [0xA4, 0x55, 0x87, 0x5A, 0x58, 0xDB, 0x9E, 0x03]

/-- Row `i` of the RS matrix times the vector `m`: the products, xored (R158). -/
def rsByte (i : Fin 4) (m : List Byte) : Byte :=
  (List.zipWith (gfmul polyRs) (rsRow i) m).foldl (· ^^^ ·) 0

/-- `rs_reduce(m)` of 8 bytes (R158). -/
def rsReduce (m : List Byte) : Word := wordOf (rsByte 0 m) (rsByte 1 m) (rsByte 2 m) (rsByte 3 m)

end Sys2Proof.Machine
end

