-- ==== Sys2Proof/Machine/Cipher.lean ====
section
/-! DEFINITION. The functions of the cipher: the Q permutations, the H-function, the key schedule, the S-boxes and the G step
(spec/41_keyschedule.md R180 to R190), and the block transform with its inverse (spec/42_block.md R230 to R234). -/

namespace Sys2Proof.Machine

/-- A lookup in a 4-bit table (R180). -/
def nibbleAt (t : List Nibble) (a : Nibble) : Nibble := t.getD a.toNat 0

/-- `qperm(t, x)` with the tables t0 to t3 (R180). -/
def qperm (t0 t1 t2 t3 : List Nibble) (x : Byte) : Byte :=
  let a0 : Nibble := x.extractLsb' 4 4
  let b0 : Nibble := x.extractLsb' 0 4
  let a1 := a0 ^^^ b0
  let b1 := a0 ^^^ b0.rotateRight 1 ^^^ (a0 <<< 3)
  let a2 := nibbleAt t0 a1
  let b2 := nibbleAt t1 b1
  let a3 := a2 ^^^ b2
  let b3 := a2 ^^^ b2.rotateRight 1 ^^^ (a2 <<< 3)
  let a4 := nibbleAt t2 a3
  let b4 := nibbleAt t3 b3
  b4 ++ a4

/-- Q0 (R180, listed in R181). -/
def q0 (x : Byte) : Byte :=
  qperm [0x8, 0x1, 0x7, 0xD, 0x6, 0xF, 0x3, 0x2, 0x0, 0xB, 0x5, 0x9, 0xE, 0xC, 0xA, 0x4]
    [0xE, 0xC, 0xB, 0x8, 0x1, 0x2, 0x3, 0x5, 0xF, 0x4, 0xA, 0x6, 0x7, 0x0, 0x9, 0xD]
    [0xB, 0xA, 0x5, 0xE, 0x6, 0xD, 0x9, 0x0, 0xC, 0x8, 0xF, 0x3, 0x2, 0x4, 0x7, 0x1]
    [0xD, 0x7, 0xF, 0x4, 0x1, 0x2, 0x6, 0xE, 0x9, 0xB, 0x3, 0x0, 0x8, 0x5, 0xC, 0xA] x

/-- Q1 (R180, listed in R182). -/
def q1 (x : Byte) : Byte :=
  qperm [0x2, 0x8, 0xB, 0xD, 0xF, 0x7, 0x6, 0xE, 0x3, 0x1, 0x9, 0x4, 0x0, 0xA, 0xC, 0x5]
    [0x1, 0xE, 0x2, 0xB, 0x4, 0xC, 0x3, 0x7, 0x6, 0xD, 0xA, 0x5, 0xF, 0x9, 0x0, 0x8]
    [0x4, 0xC, 0x7, 0x5, 0x1, 0x6, 0x9, 0xA, 0x0, 0xE, 0xD, 0x8, 0x2, 0xB, 0x3, 0xF]
    [0xB, 0x9, 0x5, 0x1, 0xC, 0x3, 0xD, 0xE, 0x6, 0x4, 0x7, 0xF, 0x2, 0x0, 0x8, 0xA] x

/-- `Lc.j`: byte `j` of word `c` of a key-word list (R183). -/
def keyByte (l : List Word) (c j : Nat) : Byte := byteOf j (l.getD c 0)

/-- Lane `j` of the H-function (R183): what it makes of byte `j` of X. The list has 2, 3 or 4 words. -/
def hlane (j : Fin 4) (l : List Word) (y : Byte) : Byte :=
  match j with
  | 0 =>
    let y := if l.length = 4 then q1 y ^^^ keyByte l 3 0 else y
    let y := if 3 ≤ l.length then q1 y ^^^ keyByte l 2 0 else y
    q1 (q0 (q0 y ^^^ keyByte l 1 0) ^^^ keyByte l 0 0)
  | 1 =>
    let y := if l.length = 4 then q0 y ^^^ keyByte l 3 1 else y
    let y := if 3 ≤ l.length then q1 y ^^^ keyByte l 2 1 else y
    q0 (q0 (q1 y ^^^ keyByte l 1 1) ^^^ keyByte l 0 1)
  | 2 =>
    let y := if l.length = 4 then q0 y ^^^ keyByte l 3 2 else y
    let y := if 3 ≤ l.length then q0 y ^^^ keyByte l 2 2 else y
    q1 (q1 (q0 y ^^^ keyByte l 1 2) ^^^ keyByte l 0 2)
  | 3 =>
    let y := if l.length = 4 then q1 y ^^^ keyByte l 3 3 else y
    let y := if 3 ≤ l.length then q0 y ^^^ keyByte l 2 3 else y
    q0 (q1 (q1 y ^^^ keyByte l 1 3) ^^^ keyByte l 0 3)

/-- Byte `j` of `hbytes(X, L)` (R183). -/
def hbyte (j : Fin 4) (x : Word) (l : List Word) : Byte := hlane j l (byteOf j.val x)

/-- `h(X, L)` (R184), through the MDS tables `mds`. -/
def hFunc (mds : Tables) (x : Word) (l : List Word) : Word :=
  mds.entry 0 (hbyte 0 x l) ^^^ mds.entry 1 (hbyte 1 x l) ^^^ mds.entry 2 (hbyte 2 x l) ^^^ mds.entry 3 (hbyte 3 x l)

/-- ρ (R187). -/
def rho : Word := 0x01010101

/-- The key length code k of a legal KEYLEN (R186): the number of 8-byte chunks, 2, 3 or 4. -/
def keyChunks (keylen : Word) : Option Nat :=
  if keylen = 16 then some 2 else if keylen = 24 then some 3 else if keylen = 32 then some 4 else none

/-- `Me`, the even key words (R186). -/
def evenWords (key : Vector Word 8) (k : Nat) : List Word := (List.range k).map fun i => keyWord key (2 * i)

/-- `Mo`, the odd key words (R186). -/
def oddWords (key : Vector Word 8) (k : Nat) : List Word := (List.range k).map fun i => keyWord key (2 * i + 1)

/-- `A` of round index `i` (R187). -/
def scheduleA (mds : Tables) (key : Vector Word 8) (k i : Nat) : Word :=
  hFunc mds (BitVec.ofNat 32 (2 * i) * rho) (evenWords key k)

/-- `B` of round index `i` (R187). -/
def scheduleB (mds : Tables) (key : Vector Word 8) (k i : Nat) : Word :=
  rol (hFunc mds (BitVec.ofNat 32 (2 * i + 1) * rho) (oddWords key k)) 8

/-- Subkey `K[n]` (R187): for n = 2i it is A + B, for n = 2i+1 it is ROL(A + 2·B, 9). -/
def subkeyOf (mds : Tables) (key : Vector Word 8) (k n : Nat) : Word :=
  let a := scheduleA mds key k (n / 2)
  let b := scheduleB mds key k (n / 2)
  if n % 2 = 0 then a + b else rol (a + double b) 9

/-- `S_c`, the RS reduction of key chunk `c` (R188). -/
def swordOf (key : Vector Word 8) (c : Nat) : Word :=
  rsReduce (wordBytes (keyWord key (2 * c)) ++ wordBytes (keyWord key (2 * c + 1)))

/-- `Slist = (S_{k-1}, ..., S_0)` (R188). -/
def slist (key : Vector Word 8) (k : Nat) : List Word := ((List.range k).map (swordOf key)).reverse

/-- `SBOX[j][x]` for the S words `sl` (R189). -/
def sboxEntry (mds : Tables) (sl : List Word) (j : Fin 4) (x : Byte) : Word :=
  mds.entry j (hbyte j (x.setWidth 32 * rho) sl)

/-- `SWORD[c]`: S_c for c < k, else 0 (10_state.md R49). -/
def swordReg (key : Vector Word 8) (k c : Nat) : Word := if c < k then swordOf key c else 0

/-- The key context that KEYSCHED builds from the key registers and k (R191). -/
def keySchedule (mds : Tables) (key : Vector Word 8) (k : Nat) : KeyCtx :=
  { valid := true
    keysz := BitVec.ofNat 2 (k - 1)
    subkey := ⟨⟨(List.range 40).map (subkeyOf mds key k)⟩, by simp⟩
    sword := ⟨swordReg key k 0, swordReg key k 1, swordReg key k 2, swordReg key k 3⟩
    sbox := Tables.build (sboxEntry mds (slist key k)) }

/-- `SUBKEY[n]`, 0 beyond the array (which no rule uses). -/
def subkeyAt (c : KeyCtx) (n : Nat) : Word := c.subkey.toList.getD n 0

/-- `g(X)` (R190). -/
def gFunc (sbox : Tables) (x : Word) : Word :=
  sbox.entry 0 (byteOf 0 x) ^^^ sbox.entry 1 (byteOf 1 x) ^^^ sbox.entry 2 (byteOf 2 x) ^^^ sbox.entry 3 (byteOf 3 x)

/-- `F(r, R0, R1) = (F0, F1)` (42_block.md R230). -/
def roundF (c : KeyCtx) (r : Nat) (r0 r1 : Word) : Word × Word :=
  let t0 := gFunc c.sbox r0
  let t1 := gFunc c.sbox (rol r1 8)
  (t0 + t1 + subkeyAt c (2 * r + 8), t0 + double t1 + subkeyAt c (2 * r + 9))

/-- The swap of word pairs (R231). -/
def swapPairs (q : Quad) : Quad := ⟨q.w2, q.w3, q.w0, q.w1⟩

/-- Encryption round r, its swap included (R231). -/
def encRound (c : KeyCtx) (q : Quad) (r : Nat) : Quad :=
  let f := roundF c r q.w0 q.w1
  swapPairs { q with w2 := ror (q.w2 ^^^ f.1) 1, w3 := rol q.w3 1 ^^^ f.2 }

/-- Decryption round r, without a swap (R233). -/
def decRound (c : KeyCtx) (q : Quad) (r : Nat) : Quad :=
  let f := roundF c r q.w0 q.w1
  { q with w2 := rol q.w2 1 ^^^ f.1, w3 := ror (q.w3 ^^^ f.2) 1 }

/-- One turn of the loop of D_K: the round, then the swap unless r = 0 (R234). -/
def decTurn (c : KeyCtx) (q : Quad) (r : Nat) : Quad :=
  if 0 < r then swapPairs (decRound c q r) else decRound c q r

/-- The whitening keys SUBKEY[n..n+3] (R232). -/
def whitening (c : KeyCtx) (n : Nat) : Quad := ⟨subkeyAt c n, subkeyAt c (n + 1), subkeyAt c (n + 2), subkeyAt c (n + 3)⟩

/-- `E_K(P)` on the words of a block (R232). -/
def encryptBlock (c : KeyCtx) (p : Quad) : Quad :=
  quadXor (swapPairs ((List.range 16).foldl (encRound c) (quadXor p (whitening c 0)))) (whitening c 4)

/-- `D_K(C)` on the words of a block (R234). -/
def decryptBlock (c : KeyCtx) (x : Quad) : Quad :=
  quadXor ((List.range 16).reverse.foldl (decTurn c) (quadXor x (whitening c 4))) (whitening c 0)

end Sys2Proof.Machine
end

