-- ==== Sys2Proof/Machine/Message.lean ====
section
/-! DEFINITION. The functions of the chaining and padding family: CBC over blocks and value-equals-count padding
(spec/43_chaining.md R260 to R263). -/

namespace Sys2Proof.Machine

/-- The number N of padding bytes of a message of `n` bytes, 1 to 16 (R260). -/
def padCount (n : Nat) : Nat := 16 - n % 16

/-- `pad(m)` (R260). -/
def padBytes (m : List Byte) : List Byte :=
  m ++ List.replicate (padCount m.length) (BitVec.ofNat 8 (padCount m.length))

/-- `unpad(m)`, or PADDING (R261). -/
def unpadBytes (m : List Byte) : Except ErrCode (List Byte) :=
  let last : Byte := m.getLastD 0
  let n := last.toNat
  if m.length = 0 then .error .padding
  else if n = 0 ∨ 16 < n then .error .padding
  else if m.length < n then .error .padding
  else if m.drop (m.length - n) ≠ List.replicate n last then .error .padding
  else .ok (m.take (m.length - n))

/-- `cbc_enc(iv, P)` over blocks, for the block transform `enc` (R262). -/
def cbcEncrypt (enc : Quad → Quad) (prev : Quad) (ps : List Quad) : List Quad :=
  match ps with
  | [] => []
  | p :: rest => enc (quadXor p prev) :: cbcEncrypt enc (enc (quadXor p prev)) rest

/-- `cbc_dec(iv, C)` over blocks, for the inverse transform `dec` (R263). -/
def cbcDecrypt (dec : Quad → Quad) (prev : Quad) (cs : List Quad) : List Quad :=
  match cs with
  | [] => []
  | c :: rest => quadXor (dec c) prev :: cbcDecrypt dec c rest

/-- The output of MSGENC: `iv || cbc_enc(iv, pad(m))` (R270). -/
def sealMessage (c : KeyCtx) (iv : Quad) (m : List Byte) : List Byte :=
  quadBytes iv ++ blocksBytes (cbcEncrypt (encryptBlock c) iv (blocksOf (padBytes m)))

/-- The output of MSGDEC for `IV || ciphertext`, or PADDING (R271). -/
def openMessage (c : KeyCtx) (m : List Byte) : Except ErrCode (List Byte) :=
  unpadBytes (blocksBytes (cbcDecrypt (decryptBlock c) (quadOfBytes (m.take 16)) (blocksOf (m.drop 16))))

end Sys2Proof.Machine
end

