-- ==== Sys2Proof/Machine/Flags.lean ====
section
/-! DEFINITION. The flags of TFCORE: ERRCODE and ERR, IRQ, and the words that STATUS, CTRL and CAPS read as
(spec/10_state.md R33 to R36, spec/60_exceptions.md R321, R336). -/

namespace Sys2Proof.Machine

/-- The number of an error code (R321). -/
def codeBits (c : ErrCode) : BitVec 4 :=
  match c with
  | .none => 0
  | .illegalCmd => 1
  | .keysize => 2
  | .blocksize => 3
  | .padding => 4
  | .nokey => 5
  | .length => 6

/-- The error code of a number 0 to 6 (R321). -/
def codeOfFin (n : Fin 7) : ErrCode :=
  match n with
  | 0 => .none
  | 1 => .illegalCmd
  | 2 => .keysize
  | 3 => .blocksize
  | 4 => .padding
  | 5 => .nokey
  | 6 => .length

/-- ERR goes with ERRCODE: 1 exactly when the code is not NONE (R36, 44_system.md R311). -/
def errOf (c : ErrCode) : Bool := c != .none

/-- The interrupt line, also STATUS[12]: `DONE & CTRL.IRQEN` (R336). -/
def State.irq (s : State) : Bool := s.done && s.irqen

/-- A single flag placed at bit `lo` of a word. -/
def flagAt (b : Bool) (lo : Nat) : Word := place 1 (BitVec.ofBool b) lo

/-- What STATUS reads as (R36). Bits 31:13 read 0. -/
def statusWord (s : State) : Word :=
  flagAt s.busy 0 ||| flagAt s.done 1 ||| flagAt s.err 2 ||| flagAt s.overrun 3 ||| place 4 (codeBits s.errcode) 4
    ||| flagAt s.mdsValid 8 ||| flagAt s.ctx.valid 9 ||| place 2 s.ctx.keysz 10 ||| flagAt s.irq 12

/-- What CTRL reads as: `IRQEN << 1` (R35). -/
def ctrlWord (s : State) : Word := flagAt s.irqen 1

/-- What CAPS reads as (R34). Bits 31:18 read 0. -/
def capsWord (p : Params) : Word :=
  place 16 (BitVec.ofNat 16 p.bufBlocks) 0 ||| flagAt p.hasRng 16 ||| flagAt p.readback 17

/-- What ID reads as (R33). -/
def idWord : Word := 0x54460007

end Sys2Proof.Machine
end

