-- ==== Sys2Proof/Machine/Ops.lean ====
section
/-! DEFINITION. The named operations of the machine: the byte memory, ensureMDS, free values, the issue and the completion of a
command, the error completion (TFCORE's form of taking an exception), CTRL's clear, and reset (spec/44_system.md R310, R311,
R313; spec/60_exceptions.md R320, R330, R334; spec/40_field.md R156; spec/70_reset_and_hazards.md R360 to R362). -/

namespace Sys2Proof.Machine

/-! ### The byte memory -/

/-- The byte listed at address `a`, if one is. -/
def Memory.read? (m : Memory) (a : Nat) : Option Byte :=
  match m with
  | [] => none
  | c :: rest => if c.1 = a then some c.2 else Memory.read? rest a

/-- The cells of the bytes `bs` at addresses `a`, `a + 1`, ... -/
def cellsAt (a : Nat) (bs : List Byte) : Memory :=
  match bs with
  | [] => []
  | b :: rest => (a, b) :: cellsAt (a + 1) rest

/-- Memory with the bytes `bs` stored from address `a` on. -/
def Memory.store (m : Memory) (a : Nat) (bs : List Byte) : Memory :=
  m.filter (fun c => c.1 < a) ++ cellsAt a bs ++ m.filter (fun c => a + bs.length ≤ c.1)

/-- The canonical form: the addresses rise strictly. (What an unlisted address holds is no listed byte but the draw of the
last reset, so no entry is to be left out: log entry 4.) -/
def Memory.wf (m : Memory) : Bool :=
  match m with
  | [] => true
  | [_] => true
  | c :: d :: rest => decide (c.1 < d.1) && Memory.wf (d :: rest)

/-- The byte of a buffer address: the byte last stored there, else the one drawn for it at the last reset
(10_state.md R51). -/
def State.byteAt (s : State) (a : Nat) : Byte := (s.mem.read? a).getD (Config.bufByte s.resets a)

/-- `n` buffer bytes from address `a` on. -/
def State.bytesAt (s : State) (a n : Nat) : List Byte := (List.range n).map fun i => s.byteAt (a + i)

/-- The four bytes at address `a` as a word (20_memory.md R84). -/
def State.wordAt (s : State) (a : Nat) : Word := wordOf (s.byteAt a) (s.byteAt (a + 1)) (s.byteAt (a + 2)) (s.byteAt (a + 3))

/-- `INBUF[0..n)`. -/
def State.inbuf (s : State) (n : Nat) : List Byte := s.bytesAt inbufBase n

/-- The state with the bytes `bs` stored from buffer address `a` on. -/
def State.storeBytes (s : State) (a : Nat) (bs : List Byte) : State := { s with mem := s.mem.store a bs }

/-! ### Free values -/

/-- The unconstrained word that the location `l` receives or is read as in the current event. -/
def State.freeAt (s : State) (l : Loc) : Word := Config.freeWord s.draws (locOffset l)

/-- The unconstrained words of a four-register group. -/
def State.freeQuad (s : State) (l : Fin 4 → Loc) : Quad :=
  ⟨s.freeAt (l 0), s.freeAt (l 1), s.freeAt (l 2), s.freeAt (l 3)⟩

/-- The state after a draw: the next event's free values are others. -/
def State.drawn (s : State) : State := { s with draws := s.draws + 1 }

/-- `draw(n)` (00_scope.md R10, R18): `n` bytes of ENTROPY. -/
def State.entropy (s : State) (n : Nat) : List Byte := (List.range n).map fun i => Config.entropy s.draws i

/-! ### ensureMDS -/

/-- `ensureMDS()` (40_field.md R156). -/
def State.ensureMds (s : State) : State := if s.mdsValid then s else { s with mds := mdsTables, mdsValid := true }

/-! ### Issue and completion of a command -/

/-- An accepted write of the word `v` to CMD, BUSY being 0 (44_system.md R310), with its LATENCY drawn (log entry 3). -/
def State.issue (s : State) (v : Word) : State :=
  { s with lastcmd := v, pending := v, busy := true, done := false, err := false, errcode := .none, taint := false,
           countdown := Config.latency s.draws, draws := s.draws + 1 }

/-- A HOST write of the word `v` to CMD (44_system.md R310): dropped with OVERRUN while BUSY = 1. -/
def State.writeCmd (s : State) (v : Word) : State := if s.busy then { s with overrun := true } else s.issue v

/-- The end of a command with error code `c` (44_system.md R311): BUSY <- 0, DONE <- 1, TAINT <- 0, ERR and ERRCODE. -/
def State.finish (s : State) (c : ErrCode) : State :=
  { s with busy := false, done := true, err := errOf c, errcode := c, taint := false }

/-- An error completion (60_exceptions.md R320): ERR, ERRCODE, BUSY and DONE are written, and nothing else. This is TFCORE's
form of taking an exception. Nothing is saved and control goes nowhere. -/
def State.fail (s : State) (c : ErrCode) : State := s.finish c

/-- A completion that succeeds: the writes of the pseudocode stand in `s` (44_system.md R311). -/
def State.succeed (s : State) : State := s.finish .none

/-- A tainted completion (44_system.md R311): `havoc` is the state with the command's write set unconstrained. ERRCODE is any of
0 to 6, and ERR goes with it. -/
def State.finishTainted (s havoc : State) : State := (havoc.finish (codeOfFin (Config.freeCode s.draws))).drawn

/-- The completion step of a command (44_system.md R311) in the state `s`, where `body` is the outcome of its pseudocode on `s`
and `havoc` is `s` with its write set unconstrained. TAINT comes before the outcome, also for an ILLEGAL word (log entry 11). -/
def State.complete (s : State) (body : Except ErrCode State) (havoc : State) : State :=
  if s.taint then s.finishTainted havoc
  else
    match body with
    | .error c => s.fail c
    | .ok t => t.succeed

/-- The completion of an ILLEGAL word (30_encoding.md R127, 60_exceptions.md R322): its write set is empty. -/
def State.illegalCommand (s : State) : State := s.complete (.error .illegalCmd) s

/-- The clear of CTRL.CLR (44_system.md R313). There is nothing to return from after an error (60_exceptions.md R334): the code
stays until this, the next accepted CMD write or reset. -/
def State.clearStatus (s : State) : State := { s with done := false, err := false, errcode := .none, overrun := false }

/-! ### Reset -/

/-- A soft reset (70_reset_and_hazards.md R360 to R362): every location takes its reset value and a running command is
abandoned. The parameters are no state of the core, the HOST goes on, and the buffers hold fresh draws. -/
def State.softReset (s : State) : State :=
  { State.powerOn s.params with host := s.host, reads := s.reads, draws := s.draws, resets := s.resets + 1 }

/-- A HOST write of the word `v` to CTRL (44_system.md R313). -/
def State.writeCtrl (s : State) (v : Word) : State :=
  if v.getLsbD 0 then s.softReset
  else if v.getLsbD 2 then { s with irqen := v.getLsbD 1 }.clearStatus
  else { s with irqen := v.getLsbD 1 }

/-! ### What a command's write set becomes under TAINT (44_system.md R311; 10_state.md, table after R48) -/

/-- RESULT unconstrained. -/
def State.havocResult (s : State) : State := { s with result := s.freeAt .result }

/-- DOUT unconstrained. -/
def State.havocDout (s : State) : State := { s with dout := s.freeQuad .dout }

/-- CHAIN unconstrained. -/
def State.havocChain (s : State) : State := { s with chain := s.freeQuad .chain }

/-- IV unconstrained. -/
def State.havocIv (s : State) : State := { s with iv := s.freeQuad .iv }

/-- KEY0 to KEY7 unconstrained. -/
def State.havocKey (s : State) : State := { s with key := Vector.ofFn fun i => s.freeAt (.key i) }

/-- The key context unconstrained, but KEYSZ = 0 whenever KEY_VALID = 0 (10_state.md R36). Bits 9 and 11:10 of the free word of
STATUS stand for KEY_VALID and KEYSZ. -/
def State.havocCtx (s : State) : State :=
  let w := s.freeAt .status
  { s with ctx :=
      { valid := w.getLsbD 9
        keysz := if w.getLsbD 9 then w.extractLsb' 10 2 else 0
        subkey := Vector.ofFn fun i => s.freeAt (.subkey i)
        sword := s.freeQuad .sword
        sbox := Tables.build fun j x => s.freeAt (.sbox j x.toFin) } }

/-- OUTLEN and every byte of OUTBUF unconstrained. -/
def State.havocOut (s : State) : State :=
  { s with
      outlen := s.freeAt .outlen
      mem := s.mem.store outbufBase
        ((List.range s.params.bufBytes).map fun i => Config.freeByte s.draws (outbufBase + i)) }

/-! ### The host's placing of a command -/

/-- The state with the word `v` issued and its completion due at the very next step. -/
def State.placeCommand (s : State) (v : Word) : State := { s.issue v with countdown := 0, draws := s.draws }

end Sys2Proof.Machine
end

