-- ==== Sys2Proof/Machine/KeySchedule.lean ====
section
/-! DEFINITION. The key-dependent family: HFUNC, KEYSCHED, KEYCLR, GFUNC (spec/41_keyschedule.md R185, R191 to R193). -/

namespace Sys2Proof.Machine

/-- The pseudocode of HFUNC with K key words (R185): the tables are built first, then read. -/
def hfuncBody (k : Nat) (s : State) : State :=
  { s.ensureMds with result := hFunc s.ensureMds.mds s.opa (hlList s.hl k) }

/-- The completion of HFUNC with K key words. Under TAINT the MDS tables are built all the same (44_system.md R311). -/
def hfuncComplete (k : Nat) (s : State) : State := s.complete (.ok (hfuncBody k s)) s.ensureMds.havocResult

/-- HFUNC.K2 (R185). -/
def execHfuncK2 (s : State) : Host.Outcome State Fault Refusal := .next (hfuncComplete 2 s)

/-- HFUNC.K3 (R185). -/
def execHfuncK3 (s : State) : Host.Outcome State Fault Refusal := .next (hfuncComplete 3 s)

/-- HFUNC.K4 (R185). -/
def execHfuncK4 (s : State) : Host.Outcome State Fault Refusal := .next (hfuncComplete 4 s)

/-- The pseudocode of KEYSCHED (R191): KEYSIZE unless KEYLEN is 16, 24 or 32. -/
def keyschedBody (s : State) : Except ErrCode State :=
  match keyChunks s.keylen with
  | none => .error .keysize
  | some k => .ok { s.ensureMds with ctx := keySchedule s.ensureMds.mds s.key k }

/-- The state of the MDS tables after a tainted KEYSCHED: it calls ensureMDS exactly where KEYLEN is legal, since a command that
fails does not call it (44_system.md R311, 40_field.md R156; log entry 8). -/
def keyschedTaintedMds (s : State) : State := if (keyChunks s.keylen).isSome then s.ensureMds else s

/-- KEYSCHED (R191). -/
def execKeysched (s : State) : Host.Outcome State Fault Refusal :=
  .next (s.complete (keyschedBody s) (keyschedTaintedMds s).havocCtx)

/-- KEYCLR (R192). -/
def execKeyclr (s : State) : Host.Outcome State Fault Refusal :=
  .next (s.complete (.ok { s with key := Vector.replicate 8 0, ctx := KeyCtx.empty }) s.havocKey.havocCtx)

/-- The pseudocode of a command that needs a key context: NOKEY without one (60_exceptions.md R326). -/
def withKey (s : State) (body : Except ErrCode State) : Except ErrCode State :=
  if s.ctx.valid then body else .error .nokey

/-- GFUNC (R193). -/
def execGfunc (s : State) : Host.Outcome State Fault Refusal :=
  .next (s.complete (withKey s (.ok { s with result := gFunc s.ctx.sbox s.opa })) s.havocResult)

end Sys2Proof.Machine
end

