-- ==== Sys2Proof/Machine/Block.lean ====
section
/-! DEFINITION. The block transform family: ENCBLK, DECBLK (spec/42_block.md R236, R237). -/

namespace Sys2Proof.Machine

/-- ENCBLK (R236). -/
def execEncblk (s : State) : Host.Outcome State Fault Refusal :=
  .next (s.complete (withKey s (.ok { s with dout := encryptBlock s.ctx s.din })) s.havocDout)

/-- DECBLK (R237). -/
def execDecblk (s : State) : Host.Outcome State Fault Refusal :=
  .next (s.complete (withKey s (.ok { s with dout := decryptBlock s.ctx s.din })) s.havocDout)

end Sys2Proof.Machine
end

