-- ==== Sys2Proof/Machine/Chaining.lean ====
section
/-! DEFINITION. The chaining and padding family: CHAININIT, IVGEN, CBCENC, CBCDEC, PAD, UNPAD, MSGENC, MSGDEC
(spec/43_chaining.md R264 to R271). -/

namespace Sys2Proof.Machine

/-- CHAININIT (R264). -/
def execChaininit (s : State) : Host.Outcome State Fault Refusal :=
  .next (s.complete (.ok { s with chain := s.iv }) s.havocChain)

/-- The pseudocode of IVGEN (R265): a draw of 16 bytes, or ILLEGAL_CMD where HAS_RNG = 0. -/
def ivgenBody (s : State) : Except ErrCode State :=
  if s.params.hasRng then .ok { s with iv := quadOfBytes (s.entropy 16) }.drawn else .error .illegalCmd

/-- What a tainted IVGEN leaves unconstrained: IV, where the command exists. -/
def ivgenHavoc (s : State) : State := if s.params.hasRng then s.havocIv else s

/-- IVGEN (R265). -/
def execIvgen (s : State) : Host.Outcome State Fault Refusal := .next (s.complete (ivgenBody s) (ivgenHavoc s))

/-- The pseudocode of CBCENC (R266). -/
def cbcencBody (s : State) : State :=
  let c := encryptBlock s.ctx (quadXor s.din s.chain)
  { s with dout := c, chain := c }

/-- CBCENC (R266). -/
def execCbcenc (s : State) : Host.Outcome State Fault Refusal :=
  .next (s.complete (withKey s (.ok (cbcencBody s))) s.havocDout.havocChain)

/-- The pseudocode of CBCDEC (R267): CHAIN becomes the ciphertext block. -/
def cbcdecBody (s : State) : State := { s with dout := quadXor (decryptBlock s.ctx s.din) s.chain, chain := s.din }

/-- CBCDEC (R267). -/
def execCbcdec (s : State) : Host.Outcome State Fault Refusal :=
  .next (s.complete (withKey s (.ok (cbcdecBody s))) s.havocDout.havocChain)

/-- The end of a message command: `OUTBUF[0..len(out)) <- out ; reg[OUTLEN] <- len(out)` (R268). -/
def putOutput (s : State) (out : List Byte) : State :=
  { s.storeBytes outbufBase out with outlen := BitVec.ofNat 32 out.length }

/-- MSGLEN as a number (10_state.md R41). -/
def State.msgLen (s : State) : Nat := s.msglen.toNat

/-- `require L <= BUF_BYTES else LENGTH` (R268 to R271). -/
def withLength (s : State) (body : Except ErrCode State) : Except ErrCode State :=
  if s.msgLen ≤ s.params.bufBytes then body else .error .length

/-- The pseudocode of PAD (R268). -/
def padBody (s : State) : Except ErrCode State :=
  withLength s
    (if s.msgLen + padCount s.msgLen ≤ s.params.bufBytes then .ok (putOutput s (padBytes (s.inbuf s.msgLen)))
      else .error .length)

/-- PAD (R268). -/
def execPad (s : State) : Host.Outcome State Fault Refusal := .next (s.complete (padBody s) s.havocOut)

/-- The pseudocode of UNPAD (R269). -/
def unpadBody (s : State) : Except ErrCode State :=
  withLength s
    (match unpadBytes (s.inbuf s.msgLen) with
      | .ok out => .ok (putOutput s out)
      | .error c => .error c)

/-- UNPAD (R269). -/
def execUnpad (s : State) : Host.Outcome State Fault Refusal := .next (s.complete (unpadBody s) s.havocOut)

/-- The pseudocode of MSGENC (R270). -/
def msgencBody (s : State) : Except ErrCode State :=
  withKey s
    (withLength s
      (if 16 + 16 * (s.msgLen / 16) + 16 ≤ s.params.bufBytes then
          .ok (putOutput s (sealMessage s.ctx s.iv (s.inbuf s.msgLen)))
        else .error .length))

/-- MSGENC (R270). -/
def execMsgenc (s : State) : Host.Outcome State Fault Refusal := .next (s.complete (msgencBody s) s.havocOut)

/-- The pseudocode of MSGDEC (R271): NOKEY, LENGTH, BLOCKSIZE, PADDING in this order (60_exceptions.md R329). -/
def msgdecBody (s : State) : Except ErrCode State :=
  withKey s
    (withLength s
      (if 16 ≤ s.msgLen ∧ s.msgLen % 16 = 0 then
          match openMessage s.ctx (s.inbuf s.msgLen) with
          | .ok out => .ok (putOutput s out)
          | .error c => .error c
        else .error .blocksize))

/-- MSGDEC (R271). -/
def execMsgdec (s : State) : Host.Outcome State Fault Refusal := .next (s.complete (msgdecBody s) s.havocOut)

end Sys2Proof.Machine
end

