-- ==== Sys2Proof/Machine/Field.lean ====
section
/-! DEFINITION. The field family: GFMUL.RS, GFMUL.MDS, MDSGEN, RSRED (spec/40_field.md R152, R155, R159). -/

namespace Sys2Proof.Machine

/-- The pseudocode of GFMUL for the polynomial `P` (R152). -/
def gfmulBody (P : Poly) (s : State) : State :=
  { s with result := (gfmul P (byteOf 0 s.opa) (byteOf 0 s.opb)).setWidth 32 }

/-- GFMUL.RS: POLY = 0, P = 0x14D (R152). -/
def execGfmulRs (s : State) : Host.Outcome State Fault Refusal :=
  .next (s.complete (.ok (gfmulBody polyRs s)) s.havocResult)

/-- GFMUL.MDS: POLY = 1, P = 0x169 (R152). -/
def execGfmulMds (s : State) : Host.Outcome State Fault Refusal :=
  .next (s.complete (.ok (gfmulBody polyMds s)) s.havocResult)

/-- MDSGEN (R155). Its write set is the MDS tables alone, which stay exact under TAINT (44_system.md R311). -/
def execMdsgen (s : State) : Host.Outcome State Fault Refusal :=
  .next (s.complete (.ok s.ensureMds) s.ensureMds)

/-- RSRED (R159): RESULT <- rs_reduce(bytesLE(OPA, OPB)). -/
def execRsred (s : State) : Host.Outcome State Fault Refusal :=
  .next (s.complete (.ok { s with result := rsReduce (wordBytes s.opa ++ wordBytes s.opb) }) s.havocResult)

end Sys2Proof.Machine
end

