-- ==== Sys2Proof/Machine/System.lean ====
section
/-! DEFINITION. NOP (spec/44_system.md R312), the HOST's reads and writes (R314, R315; spec/20_memory.md R91 to R93, R103;
spec/70_reset_and_hazards.md R367, R368), and which of HOST and CORE moves next (spec/00_scope.md R11). -/

namespace Sys2Proof.Machine

/-- NOP (R312). -/
def execNop (s : State) : Host.Outcome State Fault Refusal := .next (s.complete (.ok s) s)

/-! ### HOST reads -/

/-- The read gate of the SUBKEY, SWORD and SBOX windows (20_memory.md R103). -/
def State.keyGate (s : State) (v : Word) : Word := if s.ctx.valid && s.params.readback then v else 0

/-- The read gate of the MDS window (20_memory.md R103). -/
def State.mdsGate (s : State) (v : Word) : Word := if s.mdsValid then v else 0

/-- The value that a location holds for a HOST read (R315). -/
def State.valueAt (s : State) (l : Loc) : Word :=
  match l with
  | .id => idWord
  | .caps => capsWord s.params
  | .ctrl => ctrlWord s
  | .status => statusWord s
  | .cmd => s.lastcmd
  | .opa => s.opa
  | .opb => s.opb
  | .result => s.result
  | .keylen => s.keylen
  | .msglen => s.msglen
  | .outlen => s.outlen
  | .hl i => s.hl.get i
  | .key _ => 0
  | .iv i => s.iv.get i
  | .chain i => s.chain.get i
  | .din i => s.din.get i
  | .dout i => s.dout.get i
  | .subkey i => s.keyGate s.ctx.subkey[i]
  | .sword i => s.keyGate (s.ctx.sword.get i)
  | .sbox j x => s.keyGate (s.ctx.sbox.entry j (BitVec.ofFin x))
  | .mds j x => s.mdsGate (s.mds.entry j (BitVec.ofFin x))
  | .inbuf m => s.wordAt (inbufBase + 4 * m)
  | .outbuf m => s.wordAt (outbufBase + 4 * m)

/-- Whether `l` is RESULT. -/
def Loc.isResult (l : Loc) : Bool := l == .result

/-- Whether `l` is in the SUBKEY, SWORD or SBOX window. -/
def Loc.isKeyTable (l : Loc) : Bool :=
  match l with
  | .subkey _ | .sword _ | .sbox _ _ => true
  | _ => false

/-- Whether `l` is in the MDS window. -/
def Loc.isMds (l : Loc) : Bool :=
  match l with
  | .mds _ _ => true
  | _ => false

/-- Whether `l` is one of DOUT0 to DOUT3. -/
def Loc.isDout (l : Loc) : Bool :=
  match l with
  | .dout _ => true
  | _ => false

/-- Whether `l` is one of CHAIN0 to CHAIN3. -/
def Loc.isChain (l : Loc) : Bool :=
  match l with
  | .chain _ => true
  | _ => false

/-- Whether `l` is one of IV0 to IV3. -/
def Loc.isIv (l : Loc) : Bool :=
  match l with
  | .iv _ => true
  | _ => false

/-- Whether `l` is one of KEY0 to KEY7. -/
def Loc.isKey (l : Loc) : Bool :=
  match l with
  | .key _ => true
  | _ => false

/-- Whether `l` is OUTLEN or in the OUTBUF window. -/
def Loc.isOutput (l : Loc) : Bool :=
  match l with
  | .outlen | .outbuf _ => true
  | _ => false

/-- Whether `l` is in the write set of a command besides STATUS (10_state.md, table after R48). The MDS tables are in that of
HFUNC and KEYSCHED only where they are still to be built. -/
def inWriteSet (s : State) (i : Instr) (l : Loc) : Bool :=
  match i with
  | .nop => false
  | .gfmulRs | .gfmulMds | .rsred | .gfunc => l.isResult
  | .mdsgen => l.isMds
  | .hfuncK2 | .hfuncK3 | .hfuncK4 => l.isResult || (l.isMds && !s.mdsValid)
  | .keysched => l.isKeyTable || (l.isMds && !s.mdsValid)
  | .keyclr => l.isKey || l.isKeyTable
  | .encblk | .decblk => l.isDout
  | .cbcenc | .cbcdec => l.isDout || l.isChain
  | .chaininit => l.isChain
  | .ivgen => l.isIv
  | .pad | .unpad | .msgenc | .msgdec => l.isOutput

/-- Whether the command that is running writes `l`. An ILLEGAL word writes nothing (30_encoding.md R127). -/
def State.running (s : State) (l : Loc) : Bool :=
  s.busy &&
    match decode s.params s.pending with
    | .command i => inWriteSet s i l
    | .illegal _ => false

/-- Whether READBACK = 0 hides the location: then it reads 0, whatever runs (00_scope.md R9). -/
def State.hidden (s : State) (l : Loc) : Bool := !s.params.readback && l.isKeyTable

/-- Whether a HOST read of `l` returns an unconstrained word (70_reset_and_hazards.md R368): the running command writes `l`, and
READBACK = 0 does not hide it. The other locations that read 0 are no exception (log entry 10). -/
def State.readsFree (s : State) (l : Loc) : Bool := s.running l && !s.hidden l

/-- A HOST read of the location `l` (R315): its value, or while BUSY = 1 an unconstrained word if the running command writes
`l` (70_reset_and_hazards.md R368). The value is handed to the HOST. A read changes nothing else but the count of draws. -/
def State.hostRead (s : State) (l : Loc) : State :=
  if s.readsFree l then { s with reads := s.freeAt l :: s.reads }.drawn
  else { s with reads := s.valueAt l :: s.reads }

/-! ### HOST writes -/

/-- The store of a HOST write at a location that is neither read-only nor CMD nor CTRL (R314). -/
def State.storeAt (s : State) (l : Loc) (v : Word) : State :=
  match l with
  | .opa => { s with opa := v }
  | .opb => { s with opb := v }
  | .keylen => { s with keylen := v }
  | .msglen => { s with msglen := v }
  | .hl i => { s with hl := s.hl.set i v }
  | .key i => { s with key := s.key.set i v }
  | .iv i => { s with iv := s.iv.set i v }
  | .chain i => { s with chain := s.chain.set i v }
  | .din i => { s with din := s.din.set i v }
  | .inbuf m => s.storeBytes (inbufBase + 4 * m) (wordBytes v)
  | .id | .caps | .ctrl | .status | .cmd | .result | .outlen | .dout _ | .subkey _ | .sword _ | .sbox _ _ | .mds _ _
  | .outbuf _ => s

/-- TAINT is set by a HOST write to any location but CTRL and CMD while BUSY = 1 (10_state.md R53, 70_reset_and_hazards.md
R367). -/
def State.markTaint (s : State) : State := if s.busy then { s with taint := true } else s

/-- A HOST write of `v` to the location `l` (R314). A write to a read-only location stores nothing (20_memory.md R92), but sets
TAINT while BUSY = 1 as every other does (70_reset_and_hazards.md R367; log entry 9). -/
def State.hostWrite (s : State) (l : Loc) (v : Word) : State :=
  if l = .cmd then s.writeCmd v
  else if l = .ctrl then s.writeCtrl v
  else if l.readOnly then s.markTaint
  else (s.storeAt l v).markTaint

/-! ### The HOST's turn -/

/-- A turn of the HOST passes: the pending command's completion comes nearer (00_scope.md R11; log entry 3). -/
def State.passTurn (s : State) (rest : List HostOp) : State := { s with host := rest, countdown := s.countdown - 1 }

/-- The HOST's read, write or poll at the head of its program. With no access to make it is idle (60_exceptions.md R343). A
poll of WAIT reads STATUS, and the loop ends when BUSY = 0 (30_encoding.md R131). -/
def hostStep (s : State) : Host.Outcome State Fault Refusal :=
  match s.host with
  | [] => .next s
  | .read width offset :: rest =>
    match busLocate s.params width offset with
    | .ok l => .next ((s.passTurn rest).hostRead l)
    | .error f => .fault f
  | .write width offset v :: rest =>
    match busLocate s.params width offset with
    | .ok l => .next ((s.passTurn rest).hostWrite l v)
    | .error f => .fault f
  | .wait :: rest => .next ((s.passTurn (if s.busy then s.host else rest)).hostRead .status)

/-- Whether the CORE moves next: BUSY = 1 and its completion is due, by LATENCY or because the HOST makes no access. -/
def State.coreTurn (s : State) : Bool := s.busy && (s.countdown == 0 || s.host.isEmpty)

end Sys2Proof.Machine
end

