-- ==== Sys2Proof/Machine/Dispatch.lean ====
section
/-! DEFINITION. The meaning of every command: its completion step (spec/44_system.md R311). -/

namespace Sys2Proof.Machine

/-- The completion step of the command `i` (R311). Every arm calls the command's own meaning. -/
def exec (i : Instr) (s : State) : Host.Outcome State Fault Refusal :=
  match i with
  | .nop => Sys2Proof.Machine.execNop s
  | .gfmulRs => Sys2Proof.Machine.execGfmulRs s
  | .gfmulMds => Sys2Proof.Machine.execGfmulMds s
  | .mdsgen => Sys2Proof.Machine.execMdsgen s
  | .rsred => Sys2Proof.Machine.execRsred s
  | .hfuncK2 => Sys2Proof.Machine.execHfuncK2 s
  | .hfuncK3 => Sys2Proof.Machine.execHfuncK3 s
  | .hfuncK4 => Sys2Proof.Machine.execHfuncK4 s
  | .keysched => Sys2Proof.Machine.execKeysched s
  | .keyclr => Sys2Proof.Machine.execKeyclr s
  | .gfunc => Sys2Proof.Machine.execGfunc s
  | .encblk => Sys2Proof.Machine.execEncblk s
  | .decblk => Sys2Proof.Machine.execDecblk s
  | .cbcenc => Sys2Proof.Machine.execCbcenc s
  | .cbcdec => Sys2Proof.Machine.execCbcdec s
  | .chaininit => Sys2Proof.Machine.execChaininit s
  | .ivgen => Sys2Proof.Machine.execIvgen s
  | .pad => Sys2Proof.Machine.execPad s
  | .unpad => Sys2Proof.Machine.execUnpad s
  | .msgenc => Sys2Proof.Machine.execMsgenc s
  | .msgdec => Sys2Proof.Machine.execMsgdec s

end Sys2Proof.Machine
end

