-- ==== Sys2Proof/Machine/Step.lean ====
section
/-! DEFINITION. One step of TFCORE and its HOST: the CORE's completion of the pending command, or one turn of the HOST
(spec/10_state.md R30, spec/20_memory.md R95). -/

namespace Sys2Proof.Machine

/-- One step. TFCORE fetches nothing (20_memory.md R100): the command the CORE completes is the word latched in PENDING. -/
def step (s : State) : Host.Outcome State Fault Refusal :=
  if s.coreTurn then
    match decode s.params s.pending with
    | .command i => exec i s
    | .illegal _ => .next s.illegalCommand
  else hostStep s

/-- The state with the command word of a table row issued and due, so that the very next step completes it (log entry 7). -/
def State.withFetchWord (s : State) (nbits w : Nat) : State := s.placeCommand (tableWord nbits w)

end Sys2Proof.Machine
end

