-- ==== Sys2Proof/Safety.lean ====
section
/-! DEFINITION. The invariants of TFCORE (spec/10_state.md R36, R50, R52; spec/44_system.md R310, R313) and what a safe run is
(spec/60_exceptions.md R333), in the terms the statements use. -/

namespace Sys2Proof.Machine

/-- Whether a buffer address lies in INBUF or OUTBUF (20_memory.md R84). -/
def inBuffers (p : Params) (a : Nat) : Prop :=
  (inbufBase ≤ a ∧ a < inbufBase + p.bufBytes) ∨ (outbufBase ≤ a ∧ a < outbufBase + p.bufBytes)

/-- The invariant of TFCORE: what every state a run reaches satisfies. -/
structure State.Inv (s : State) : Prop where
  /-- ERR = 1 exactly when ERRCODE is not 0 (R36). -/
  errWithCode : s.err = errOf s.errcode
  /-- DONE and ERRCODE are 0 while BUSY = 1 (R310, R313). -/
  busyClear : s.busy = true → s.done = false ∧ s.errcode = .none
  /-- TAINT is 0 while BUSY = 0 (R53). -/
  taintBusy : s.taint = true → s.busy = true
  /-- PENDING is LASTCMD while BUSY = 1 (R52). -/
  pendingLast : s.busy = true → s.pending = s.lastcmd
  /-- KEYSZ is 0 whenever KEY_VALID is 0 (R36). -/
  keyszZero : s.ctx.valid = false → s.ctx.keysz = 0
  /-- The MDS tables hold their constant while MDS_VALID = 1, and 0 before (R50). -/
  mdsExact : s.mds = if s.mdsValid then mdsTables else Tables.zero
  /-- The byte memory is in its canonical form. -/
  memCanonical : s.mem.wf = true
  /-- The byte memory lists bytes of INBUF and OUTBUF only (R51). -/
  memInBuffers : ∀ c ∈ s.mem, inBuffers s.params c.1

/-- Every access that the HOST still makes is 4 bytes wide, aligned and mapped (20_memory.md R81, R88). -/
def State.hostWf (s : State) : Prop := ∀ op ∈ s.host, op.wf s.params = true

/-- A run of `k` steps from `s` that meets no bus error and no refusal: it ends in a next state (R333). -/
def SafeRun (s : State) (k : Nat) : Prop := ∃ t, Sys2Proof.core.run k s = .next t

/-- Whether a location is visible in STATUS only or is a constant: the read side that R368 exempts from the running
command's write set. -/
def Loc.statusSide (l : Loc) : Bool :=
  match l with
  | .id | .caps | .ctrl | .status | .cmd => true
  | .opa | .opb | .result | .keylen | .msglen | .outlen | .hl _ | .key _ | .iv _ | .chain _ | .din _ | .dout _ | .subkey _
  | .sword _ | .sbox _ _ | .mds _ _ | .inbuf _ | .outbuf _ => false

/-- Whether a location exists in the window of a TFCORE with parameters `p`: all do but the buffer words beyond BUF_BYTES
(20_memory.md R84). -/
def Loc.mapped (p : Params) (l : Loc) : Prop :=
  match l with
  | .inbuf m => 4 * m < p.bufBytes
  | .outbuf m => 4 * m < p.bufBytes
  | _ => True

end Sys2Proof.Machine
end

