-- ==== Sys2Proof/Certificates/Slice0/Obligations.lean ====
section
/-! DEFINITION. The statements for the provers, from the numbered rules of spec/. Each docstring says which rule it formalises.
Every result of a command is stated as the whole next state, so that it is also the command's frame: what the record update
does not name is unchanged. -/

open Sys2Proof Sys2Proof.Machine

namespace Sys2Proof.Cert

/-- The opcode map of 30_encoding.md R125, word by word. -/
def opcodeTable : List (BitVec 32 × Instr) :=
  [(0x00000000, .nop), (0x00000001, .gfmulRs), (0x00000101, .gfmulMds), (0x00000002, .mdsgen), (0x00000003, .rsred),
   (0x00000204, .hfuncK2), (0x00000304, .hfuncK3), (0x00000404, .hfuncK4)] ++
  [(0x00000005, .keysched), (0x00000006, .keyclr), (0x00000007, .gfunc), (0x00000008, .encblk), (0x00000009, .decblk),
   (0x0000000A, .cbcenc), (0x0000000B, .cbcdec)] ++
  [(0x0000000C, .chaininit), (0x0000000D, .ivgen), (0x00000010, .pad), (0x00000011, .unpad), (0x00000012, .msgenc),
   (0x00000013, .msgdec)]

/-- The HOST moves next and its next access is `op`, with `rest` after it. -/
def hostTurn (s : State) (op : HostOp) (rest : List HostOp) : Prop := s.host = op :: rest ∧ s.coreTurn = false

/-- The CORE's completion is due: BUSY = 1, and LATENCY has passed or the HOST makes no access (log entry 3). -/
def completionDue (s : State) : Prop := s.busy = true ∧ (s.countdown = 0 ∨ s.host = [])

/-- MSGLEN as a number. -/
def msgLen (s : State) : Nat := s.msglen.toNat

/-- The error conditions of 60_exceptions.md R321 to R327 for a command in a state. -/
def raises (i : Instr) (s : State) (c : ErrCode) : Bool :=
  let keyed : Bool := decide (i ∈ [Instr.gfunc, .encblk, .decblk, .cbcenc, .cbcdec, .msgenc, .msgdec])
  let message : Bool := decide (i ∈ [Instr.pad, .unpad, .msgenc, .msgdec])
  match c with
  | .none => false
  | .illegalCmd => i == .ivgen && !s.params.hasRng
  | .keysize => i == .keysched && !(s.keylen == 16 || s.keylen == 24 || s.keylen == 32)
  | .nokey => keyed && !s.ctx.valid
  | .length =>
    (message && decide (s.params.bufBytes < msgLen s))
      || (i == .pad && decide (s.params.bufBytes < 16 * (msgLen s / 16) + 16))
      || (i == .msgenc && decide (s.params.bufBytes < 16 * (msgLen s / 16) + 32))
  | .blocksize => i == .msgdec && (decide (msgLen s < 16) || decide (msgLen s % 16 ≠ 0))
  | .padding =>
    (i == .unpad && !(unpadBytes (s.inbuf (msgLen s))).isOk)
      || (i == .msgdec && !(openMessage s.ctx (s.inbuf (msgLen s))).isOk)

/-- The first error condition that holds, in the order of 60_exceptions.md R329, or NONE. -/
def firstError (i : Instr) (s : State) : ErrCode :=
  ([.illegalCmd, .keysize, .nokey, .length, .blocksize, .padding].find? (raises i s)).getD .none

/-- The command's word: every TFCORE that has the command decodes the word `w` to it (30_encoding.md R125, R126). -/
def hasWord (i : Instr) (w : Word) : Prop := ∀ p : Params, i.wf p = true → decode p w = .command i

/-- The command completes in the state `s` with error code `c` and writes nothing but STATUS (60_exceptions.md R320, R330). -/
def failsWith (i : Instr) (s : State) (c : ErrCode) : Prop :=
  exec i s = .next { s with busy := false, done := true, err := true, errcode := c, taint := false }

/-- Q0 as 41_keyschedule.md R181 lists it. -/
def q0Table : List Byte :=
  [0xA9, 0x67, 0xB3, 0xE8, 0x04, 0xFD, 0xA3, 0x76, 0x9A, 0x92, 0x80, 0x78, 0xE4, 0xDD, 0xD1, 0x38] ++
  [0x0D, 0xC6, 0x35, 0x98, 0x18, 0xF7, 0xEC, 0x6C, 0x43, 0x75, 0x37, 0x26, 0xFA, 0x13, 0x94, 0x48] ++
  [0xF2, 0xD0, 0x8B, 0x30, 0x84, 0x54, 0xDF, 0x23, 0x19, 0x5B, 0x3D, 0x59, 0xF3, 0xAE, 0xA2, 0x82] ++
  [0x63, 0x01, 0x83, 0x2E, 0xD9, 0x51, 0x9B, 0x7C, 0xA6, 0xEB, 0xA5, 0xBE, 0x16, 0x0C, 0xE3, 0x61] ++
  [0xC0, 0x8C, 0x3A, 0xF5, 0x73, 0x2C, 0x25, 0x0B, 0xBB, 0x4E, 0x89, 0x6B, 0x53, 0x6A, 0xB4, 0xF1] ++
  [0xE1, 0xE6, 0xBD, 0x45, 0xE2, 0xF4, 0xB6, 0x66, 0xCC, 0x95, 0x03, 0x56, 0xD4, 0x1C, 0x1E, 0xD7] ++
  [0xFB, 0xC3, 0x8E, 0xB5, 0xE9, 0xCF, 0xBF, 0xBA, 0xEA, 0x77, 0x39, 0xAF, 0x33, 0xC9, 0x62, 0x71] ++
  [0x81, 0x79, 0x09, 0xAD, 0x24, 0xCD, 0xF9, 0xD8, 0xE5, 0xC5, 0xB9, 0x4D, 0x44, 0x08, 0x86, 0xE7] ++
  [0xA1, 0x1D, 0xAA, 0xED, 0x06, 0x70, 0xB2, 0xD2, 0x41, 0x7B, 0xA0, 0x11, 0x31, 0xC2, 0x27, 0x90] ++
  [0x20, 0xF6, 0x60, 0xFF, 0x96, 0x5C, 0xB1, 0xAB, 0x9E, 0x9C, 0x52, 0x1B, 0x5F, 0x93, 0x0A, 0xEF] ++
  [0x91, 0x85, 0x49, 0xEE, 0x2D, 0x4F, 0x8F, 0x3B, 0x47, 0x87, 0x6D, 0x46, 0xD6, 0x3E, 0x69, 0x64] ++
  [0x2A, 0xCE, 0xCB, 0x2F, 0xFC, 0x97, 0x05, 0x7A, 0xAC, 0x7F, 0xD5, 0x1A, 0x4B, 0x0E, 0xA7, 0x5A] ++
  [0x28, 0x14, 0x3F, 0x29, 0x88, 0x3C, 0x4C, 0x02, 0xB8, 0xDA, 0xB0, 0x17, 0x55, 0x1F, 0x8A, 0x7D] ++
  [0x57, 0xC7, 0x8D, 0x74, 0xB7, 0xC4, 0x9F, 0x72, 0x7E, 0x15, 0x22, 0x12, 0x58, 0x07, 0x99, 0x34] ++
  [0x6E, 0x50, 0xDE, 0x68, 0x65, 0xBC, 0xDB, 0xF8, 0xC8, 0xA8, 0x2B, 0x40, 0xDC, 0xFE, 0x32, 0xA4] ++
  [0xCA, 0x10, 0x21, 0xF0, 0xD3, 0x5D, 0x0F, 0x00, 0x6F, 0x9D, 0x36, 0x42, 0x4A, 0x5E, 0xC1, 0xE0]

/-- Q1 as 41_keyschedule.md R182 lists it. -/
def q1Table : List Byte :=
  [0x75, 0xF3, 0xC6, 0xF4, 0xDB, 0x7B, 0xFB, 0xC8, 0x4A, 0xD3, 0xE6, 0x6B, 0x45, 0x7D, 0xE8, 0x4B] ++
  [0xD6, 0x32, 0xD8, 0xFD, 0x37, 0x71, 0xF1, 0xE1, 0x30, 0x0F, 0xF8, 0x1B, 0x87, 0xFA, 0x06, 0x3F] ++
  [0x5E, 0xBA, 0xAE, 0x5B, 0x8A, 0x00, 0xBC, 0x9D, 0x6D, 0xC1, 0xB1, 0x0E, 0x80, 0x5D, 0xD2, 0xD5] ++
  [0xA0, 0x84, 0x07, 0x14, 0xB5, 0x90, 0x2C, 0xA3, 0xB2, 0x73, 0x4C, 0x54, 0x92, 0x74, 0x36, 0x51] ++
  [0x38, 0xB0, 0xBD, 0x5A, 0xFC, 0x60, 0x62, 0x96, 0x6C, 0x42, 0xF7, 0x10, 0x7C, 0x28, 0x27, 0x8C] ++
  [0x13, 0x95, 0x9C, 0xC7, 0x24, 0x46, 0x3B, 0x70, 0xCA, 0xE3, 0x85, 0xCB, 0x11, 0xD0, 0x93, 0xB8] ++
  [0xA6, 0x83, 0x20, 0xFF, 0x9F, 0x77, 0xC3, 0xCC, 0x03, 0x6F, 0x08, 0xBF, 0x40, 0xE7, 0x2B, 0xE2] ++
  [0x79, 0x0C, 0xAA, 0x82, 0x41, 0x3A, 0xEA, 0xB9, 0xE4, 0x9A, 0xA4, 0x97, 0x7E, 0xDA, 0x7A, 0x17] ++
  [0x66, 0x94, 0xA1, 0x1D, 0x3D, 0xF0, 0xDE, 0xB3, 0x0B, 0x72, 0xA7, 0x1C, 0xEF, 0xD1, 0x53, 0x3E] ++
  [0x8F, 0x33, 0x26, 0x5F, 0xEC, 0x76, 0x2A, 0x49, 0x81, 0x88, 0xEE, 0x21, 0xC4, 0x1A, 0xEB, 0xD9] ++
  [0xC5, 0x39, 0x99, 0xCD, 0xAD, 0x31, 0x8B, 0x01, 0x18, 0x23, 0xDD, 0x1F, 0x4E, 0x2D, 0xF9, 0x48] ++
  [0x4F, 0xF2, 0x65, 0x8E, 0x78, 0x5C, 0x58, 0x19, 0x8D, 0xE5, 0x98, 0x57, 0x67, 0x7F, 0x05, 0x64] ++
  [0xAF, 0x63, 0xB6, 0xFE, 0xF5, 0xB7, 0x3C, 0xA5, 0xCE, 0xE9, 0x68, 0x44, 0xE0, 0x4D, 0x43, 0x69] ++
  [0x29, 0x2E, 0xAC, 0x15, 0x59, 0xA8, 0x0A, 0x9E, 0x6E, 0x47, 0xDF, 0x34, 0x35, 0x6A, 0xCF, 0xDC] ++
  [0x22, 0xC9, 0xC0, 0x9B, 0x89, 0xD4, 0xED, 0xAB, 0x12, 0xA2, 0x0D, 0x52, 0xBB, 0x02, 0x2F, 0xA9] ++
  [0xD7, 0x61, 0x1E, 0xB4, 0x50, 0x04, 0xF6, 0xC2, 0x16, 0x25, 0x86, 0x56, 0x55, 0x09, 0xBE, 0x91]

/-- One encryption round with its swap, spelled out on the words of a block (42_block.md R230, R231). -/
def feistelRound (c : KeyCtx) (r : Fin 16) (q : Quad) : Quad :=
  let g (x : Word) : Word := c.sbox.entry 0 (byteOf 0 x) ^^^ c.sbox.entry 1 (byteOf 1 x) ^^^
    c.sbox.entry 2 (byteOf 2 x) ^^^ c.sbox.entry 3 (byteOf 3 x)
  let t0 := g q.w0
  let t1 := g (q.w1.rotateLeft 8)
  let f0 := t0 + t1 + c.subkey[2 * r.val + 8]
  let f1 := t0 + 2 * t1 + c.subkey[2 * r.val + 9]
  ⟨(q.w2 ^^^ f0).rotateRight 1, q.w3.rotateLeft 1 ^^^ f1, q.w0, q.w1⟩

end Sys2Proof.Cert

open Sys2Proof.Cert

/-! ### Encoding -/

/-- R125, R126: a word is a command exactly when it is a word of the table, and IVGEN's only where HAS_RNG = 1. -/
def Obligations.DecodeAcceptsExactlyTheTable : Prop :=
  ∀ (p : Params) (w : BitVec 32) (i : Instr),
    decode p w = .command i ↔ (w, i) ∈ opcodeTable ∧ (i = .ivgen → p.hasRng = true)

/-- R125: every row of the table, encoded to its word and decoded from it, with the default parameters. -/
def Obligations.TableRowsEncodeAndDecode : Prop :=
  opcodeTable.length = 21 ∧ ∀ r ∈ opcodeTable, encode r.2 = r.1 ∧ decode Params.default r.1 = .command r.2
    ∧ decodeTableWord 32 r.1.toNat = some r.2

/-- R121, R122, R123, R127: which words are illegal, class by class. -/
def Obligations.IllegalWordsByClass : Prop :=
  ∀ (p : Params) (w : BitVec 32),
    let op := (w.extractLsb' 0 8).toNat
    let arg := (w.extractLsb' 8 4).toNat
    (∃ why, decode p w = .illegal why) ↔
      w.extractLsb' 12 20 ≠ 0 ∨ op = 0x0E ∨ op = 0x0F ∨ 0x14 ≤ op ∨ (op ≠ 1 ∧ op ≠ 4 ∧ arg ≠ 0) ∨
      (op = 1 ∧ arg / 2 ≠ 0) ∨ (op = 4 ∧ (arg % 8 ≠ 2 ∧ arg % 8 ≠ 3 ∧ arg % 8 ≠ 4 ∨ 8 ≤ arg)) ∨
      (op = 0x0D ∧ p.hasRng = false)

/-! ### Steps -/

/-- R311, R126: when its completion is due, a step is the completion of the command in PENDING. -/
def Obligations.StepCompletesThePendingCommand : Prop :=
  ∀ (s : State) (i : Instr), completionDue s → decode s.params s.pending = .command i → step s = exec i s

/-- R322, R311: an ILLEGAL word completes with ILLEGAL_CMD and writes nothing but STATUS. Under TAINT its ERRCODE is any of the
codes 0 to 6, ERR goes with it, and still nothing else is written (log entry 11). The count of draws is the model's own. -/
def Obligations.IllegalWordCompletesWithIllegalCmd : Prop :=
  ∀ (s : State) (why : Illegal), completionDue s → decode s.params s.pending = .illegal why →
    (s.taint = false → step s = .next
      { s with busy := false, done := true, err := true, errcode := .illegalCmd, taint := false }) ∧
    (s.taint = true → ∃ c : ErrCode, step s = .next
      { s with busy := false, done := true, err := decide (c ≠ .none), errcode := c, taint := false, draws := s.draws + 1 })

/-- Log entry 7: the command that `withFetchWord` places is the one that the very next step completes. -/
def Obligations.PlacedCommandRunsNext : Prop :=
  ∀ (s : State) (i : Instr), i.wf s.params = true →
    step (s.withFetchWord 32 (encode i).toNat) = exec i (s.withFetchWord 32 (encode i).toNat)

/-- R343: with no command running and no HOST access, all state is held. -/
def Obligations.IdleHoldsAllState : Prop :=
  ∀ s : State, s.busy = false → s.host = [] → step s = .next s

/-- R310: a CMD write is accepted while BUSY = 0 and dropped with OVERRUN while BUSY = 1. The countdown `n` is LATENCY, free. -/
def Obligations.CmdWriteIssuesOrOverruns : Prop :=
  ∀ (s : State) (rest : List HostOp) (v : Word), hostTurn s (.write 4 0x010 v) rest →
    (s.busy = true → step s = .next { s with host := rest, countdown := s.countdown - 1, overrun := true }) ∧
    (s.busy = false → ∃ n, step s = .next
      { s with host := rest, lastcmd := v, pending := v, busy := true, done := false, err := false, errcode := .none,
               taint := false, countdown := n, draws := s.draws + 1 })

/-- R313, R362: a CTRL write, SRST and CLR included. After SRST every field of the core is at its reset value, but PENDING, which
R361 calls a don't care (log entry 5): of it nothing is said. The rest of the HOST's list, the countdown and the counters are the
model's own (log entries 2, 3, 4, 6). -/
def Obligations.CtrlWriteActs : Prop :=
  ∀ (s : State) (rest : List HostOp) (v : Word), hostTurn s (.write 4 0x008 v) rest →
    (v.getLsbD 0 = true → ∃ w, step s = .next
      { State.powerOn s.params with pending := w, host := rest, reads := s.reads, draws := s.draws, resets := s.resets + 1 }) ∧
    (v.getLsbD 0 = false → v.getLsbD 2 = false → step s = .next
      { s with host := rest, countdown := s.countdown - 1, irqen := v.getLsbD 1 }) ∧
    (v.getLsbD 0 = false → v.getLsbD 2 = true → step s = .next
      { s with host := rest, countdown := s.countdown - 1, irqen := v.getLsbD 1, done := false, err := false,
               errcode := .none, overrun := false })

/-- R361: the reset values. Each buffer byte is the draw of that reset. -/
def Obligations.ResetValues : Prop :=
  ∀ p : Params, let s := State.powerOn p
    s.valueAt .id = 0x54460007 ∧ s.valueAt .caps = capsWord p ∧ capsWord Params.default = 0x00030040 ∧
    s.irqen = false ∧ s.busy = false ∧ s.done = false ∧ s.err = false ∧ s.overrun = false ∧ s.errcode = .none ∧
    s.mdsValid = false ∧ s.ctx.valid = false ∧ s.ctx.keysz = 0 ∧ s.irq = false ∧ s.lastcmd = 0 ∧ s.taint = false ∧
    s.opa = 0 ∧ s.opb = 0 ∧ s.result = 0 ∧ s.keylen = 0 ∧ s.msglen = 0 ∧ s.outlen = 0 ∧
    (∀ i, s.hl.get i = 0 ∧ s.iv.get i = 0 ∧ s.chain.get i = 0 ∧ s.din.get i = 0 ∧ s.dout.get i = 0) ∧
    (∀ i : Fin 8, s.key[i] = 0) ∧ (∀ i : Fin 40, s.ctx.subkey[i] = 0) ∧ (∀ i, s.ctx.sword.get i = 0) ∧
    (∀ j x, s.ctx.sbox.entry j x = 0) ∧ (∀ j x, s.mds.entry j x = 0) ∧
    (∀ a, s.byteAt a = Config.bufByte 0 a)

/-! ### The host bus -/

/-- R83 to R88: a 4-byte access is answered exactly at the offsets of the map. -/
def Obligations.BusMapIsExact : Prop :=
  ∀ (p : Params) (offset : BitVec 16) (l : Loc),
    busLocate p 4 offset = .ok l ↔ offset.toNat = locOffset l ∧ l.mapped p

/-- R81, R82, R88: an access of another width, misaligned or unmapped is a fault of the HOST's step. -/
def Obligations.BadAccessFaults : Prop :=
  ∀ (s : State) (rest : List HostOp) (width : Nat) (offset : BitVec 16) (op : HostOp),
    op = .read width offset ∨ (∃ v, op = .write width offset v) → hostTurn s op rest →
    width ≠ 4 ∨ offset.toNat % 4 ≠ 0 ∨ (∀ l : Loc, l.mapped s.params → locOffset l ≠ offset.toNat) →
    ∃ f, step s = .fault f

/-- R94, R333: only a bus error of the HOST's next access stops a step. No command does, and nothing is refused. -/
def Obligations.OnlyBusErrorsStop : Prop :=
  ∀ s : State, (∀ r, step s ≠ .refused r) ∧
    (∀ f, step s = .fault f → s.coreTurn = false ∧ ∃ op rest, s.host = op :: rest ∧ op.wf s.params = false)

/-- R333: a HOST whose accesses are all well-formed meets no fault: from every state its step leads to a next state with such a
HOST again, and so any number of steps does. -/
def Obligations.WellFormedHostRunsSafely : Prop :=
  ∀ s : State, s.hostWf → (∃ t, step s = .next t ∧ t.hostWf) ∧ ∀ k, SafeRun s k

/-- R92: a write to a read-only location changes nothing the HOST can read there or elsewhere, and only CTRL's three defined bits
act. While BUSY = 1 the write sets the hidden bit TAINT, as R53 and R367 say of any location other than CTRL and CMD: against
R92's "changes nothing" this is the model's reading (log entry 9). -/
def Obligations.ReadOnlyWritesAreIgnored : Prop :=
  (∀ (s : State) (rest : List HostOp) (offset : BitVec 16) (v : Word) (l : Loc),
    hostTurn s (.write 4 offset v) rest → busLocate s.params 4 offset = .ok l → l.readOnly = true →
    (s.busy = false → step s = .next { s with host := rest, countdown := s.countdown - 1 }) ∧
    (s.busy = true → step s = .next { s with host := rest, countdown := s.countdown - 1, taint := true })) ∧
  (∀ (s : State) (v v' : Word), v.extractLsb' 0 3 = v'.extractLsb' 0 3 → s.writeCtrl v = s.writeCtrl v')

/-- R314, R53: a store takes effect at once, and sets TAINT while BUSY = 1. -/
def Obligations.HostStoreTakesEffectAndTaints : Prop :=
  ∀ (s : State) (rest : List HostOp) (offset : BitVec 16) (v : Word) (l : Loc),
    hostTurn s (.write 4 offset v) rest → busLocate s.params 4 offset = .ok l →
    l.readOnly = false → l ≠ .cmd → l ≠ .ctrl →
    step s = .next { s.storeAt l v with host := rest, countdown := s.countdown - 1, taint := s.busy || s.taint }

/-- R95, R84, R314: a stored word reads back whole, and every other location keeps its value. What no read shows keeps its value
too: the key registers, the key context and the MDS tables behind their gates, PENDING and TAINT. -/
def Obligations.StoredWordReadsBack : Prop :=
  ∀ (s : State) (l : Loc) (v : Word), l.readOnly = false → l ≠ .cmd → l ≠ .ctrl → (∀ i, l ≠ .key i) →
    l.mapped s.params →
    (s.storeAt l v).valueAt l = v ∧
    (∀ l' : Loc, l' ≠ l → l'.mapped s.params → (s.storeAt l v).valueAt l' = s.valueAt l') ∧
    (s.storeAt l v).key = s.key ∧ (s.storeAt l v).ctx = s.ctx ∧ (s.storeAt l v).mds = s.mds ∧
    (s.storeAt l v).pending = s.pending ∧ (s.storeAt l v).taint = s.taint

/-- R44: the key registers hold what is written and always read 0. -/
def Obligations.KeyRegistersAreWriteOnly : Prop :=
  ∀ (s : State) (i : Fin 8) (v : Word),
    (∀ j : Fin 8, (s.storeAt (.key i) v).key[j] = if j = i then v else s.key[j]) ∧
    (∀ j, (s.storeAt (.key i) v).valueAt (.key j) = 0) ∧ s.storeAt (.key i) v = { s with key := (s.storeAt (.key i) v).key }

/-- R103: the read gates of the table windows. -/
def Obligations.WindowReadsAreGated : Prop :=
  ∀ s : State,
    (s.ctx.valid = false ∨ s.params.readback = false →
      (∀ i, s.valueAt (.subkey i) = 0) ∧ (∀ c, s.valueAt (.sword c) = 0) ∧ (∀ j x, s.valueAt (.sbox j x) = 0)) ∧
    (s.ctx.valid = true → s.params.readback = true →
      (∀ i, s.valueAt (.subkey i) = s.ctx.subkey[i]) ∧ (∀ c, s.valueAt (.sword c) = s.ctx.sword.get c) ∧
      (∀ j x, s.valueAt (.sbox j x) = s.ctx.sbox.entry j (BitVec.ofFin x))) ∧
    (s.mdsValid = false → ∀ j x, s.valueAt (.mds j x) = 0) ∧
    (s.mdsValid = true → ∀ j x, s.valueAt (.mds j x) = s.mds.entry j (BitVec.ofFin x))

/-- R91, R315, R368, R131: a HOST read changes no state of the core. It returns the location's value, or while BUSY = 1 any word if
the running command writes the location, which ID, CAPS, CTRL, STATUS and CMD never are. With READBACK = 0 the SUBKEY, SWORD and
SBOX windows return 0, whatever runs (R9). WAIT reads STATUS, keeps its place while BUSY = 1 and moves on when BUSY = 0. -/
def Obligations.HostReadReturnsTheValue : Prop :=
  (∀ (s : State) (rest : List HostOp) (offset : BitVec 16) (l : Loc),
    hostTurn s (.read 4 offset) rest → busLocate s.params 4 offset = .ok l →
    (s.readsFree l = false → step s = .next
      { s with host := rest, countdown := s.countdown - 1, reads := s.valueAt l :: s.reads }) ∧
    (s.readsFree l = true → ∃ w, step s = .next
      { s with host := rest, countdown := s.countdown - 1, reads := w :: s.reads, draws := s.draws + 1 }) ∧
    (l.statusSide = true ∨ s.busy = false → s.readsFree l = false) ∧
    (s.params.readback = false → l.isKeyTable = true → s.readsFree l = false ∧ s.valueAt l = 0)) ∧
  ∀ (s : State) (rest : List HostOp), hostTurn s .wait rest → step s = .next
    { s with host := if s.busy then .wait :: rest else rest, countdown := s.countdown - 1,
             reads := s.valueAt .status :: s.reads }

/-- R36, R336: the fields of STATUS, and of CTRL and CAPS (R34, R35), and the numbers of the error codes (R321). -/
def Obligations.StatusCtrlCapsLayout : Prop :=
  [ErrCode.none, .illegalCmd, .keysize, .blocksize, .padding, .nokey, .length].map codeBits = [0, 1, 2, 3, 4, 5, 6] ∧
  ∀ s : State,
    let w := s.valueAt .status
    w.getLsbD 0 = s.busy ∧ w.getLsbD 1 = s.done ∧ w.getLsbD 2 = s.err ∧ w.getLsbD 3 = s.overrun ∧
    w.extractLsb' 4 4 = codeBits s.errcode ∧ w.getLsbD 8 = s.mdsValid ∧ w.getLsbD 9 = s.ctx.valid ∧
    w.extractLsb' 10 2 = s.ctx.keysz ∧ w.getLsbD 12 = (s.done && s.irqen) ∧
    s.valueAt .ctrl = (if s.irqen then 2 else 0) ∧
    ((s.valueAt .caps).extractLsb' 0 16).toNat = s.params.bufBytes / 16 ∧
    (s.valueAt .caps).getLsbD 16 = s.params.hasRng ∧ (s.valueAt .caps).getLsbD 17 = s.params.readback

/-- R55: the reserved bits read 0. -/
def Obligations.ReservedBitsReadZero : Prop :=
  ∀ s : State, (s.valueAt .ctrl).extractLsb' 3 29 = 0 ∧ (s.valueAt .status).extractLsb' 13 19 = 0 ∧
    (s.valueAt .caps).extractLsb' 18 14 = 0

/-- R11, R362: within `countdown + 1` steps a pending command completes, or a soft reset abandons it, or the HOST meets a bus
error. -/
def Obligations.PendingCommandCompletes : Prop :=
  ∀ s : State, s.busy = true →
    ∃ k, k ≤ s.countdown + 1 ∧
      ((∃ t, Sys2Proof.core.run k s = .next t ∧ t.busy = false ∧ (t.done = true ∨ t.resets = s.resets + 1)) ∨
        (∃ f, Sys2Proof.core.run k s = .fault f))

/-! ### Commands -/

/-- R312: NOP's word, and that it writes nothing but STATUS. -/
def Obligations.NopWritesOnlyStatus : Prop :=
  hasWord .nop 0x00000000 ∧ ∀ s : State, s.taint = false →
    exec .nop s = .next { s with busy := false, done := true, err := false, errcode := .none, taint := false }

/-- R152: GFMUL's words, and that it writes RESULT with the zero-extended product of the low bytes of OPA and OPB. -/
def Obligations.GfmulWritesTheProduct : Prop :=
  hasWord .gfmulRs 0x00000001 ∧ hasWord .gfmulMds 0x00000101 ∧ ∀ s : State, s.taint = false →
    exec .gfmulRs s = .next
      { s with result := (gfmul 0x14D (s.opa.extractLsb' 0 8) (s.opb.extractLsb' 0 8)).setWidth 32,
               busy := false, done := true, err := false, errcode := .none, taint := false } ∧
    exec .gfmulMds s = .next
      { s with result := (gfmul 0x169 (s.opa.extractLsb' 0 8) (s.opb.extractLsb' 0 8)).setWidth 32,
               busy := false, done := true, err := false, errcode := .none, taint := false }

/-- R155, R156: MDSGEN's word, and that it builds the tables where MDS_VALID = 0, and changes no entry where it is 1. -/
def Obligations.MdsgenBuildsTheTables : Prop :=
  hasWord .mdsgen 0x00000002 ∧ ∀ s : State, s.taint = false →
    ∃ m, exec .mdsgen s = .next
      { s with mds := m, mdsValid := true, busy := false, done := true, err := false, errcode := .none, taint := false } ∧
    (s.mdsValid = true → m = s.mds) ∧ (s.mdsValid = false → ∀ j x, m.entry j x = mdsEntry j x)

/-- R158, R159: RSRED's word, and that it writes RESULT with the RS reduction of the 8 bytes of OPA and OPB. The reduction is linear
over xor, and its value is the RS matrix of R157 times the bytes, row by row: the unit vectors give the matrix's columns. -/
def Obligations.RsredWritesTheReduction : Prop :=
  hasWord .rsred 0x00000003 ∧
  (∀ s : State, s.taint = false →
    exec .rsred s = .next
      { s with result := rsReduce ([byteOf 0 s.opa, byteOf 1 s.opa, byteOf 2 s.opa, byteOf 3 s.opa] ++
                                   [byteOf 0 s.opb, byteOf 1 s.opb, byteOf 2 s.opb, byteOf 3 s.opb]),
               busy := false, done := true, err := false, errcode := .none, taint := false }) ∧
  (∀ m m' : List Byte, m.length = 8 → m'.length = 8 →
    rsReduce (List.zipWith (· ^^^ ·) m m') = rsReduce m ^^^ rsReduce m') ∧
  ((List.range 8).map fun j => rsReduce ((List.replicate 8 0).set j 1)) =
    [0xA402A401, 0x55A156A4, 0x87FC8255, 0x5AC1F387, 0x58471E5A, 0xDBAEC658, 0x9E3D68DB, 0x0319E59E] ∧
  ∀ m0 m1 m2 m3 m4 m5 m6 m7 : Byte,
    let row (a b c d e f g h : Byte) : Byte := gfmul 0x14D a m0 ^^^ gfmul 0x14D b m1 ^^^ gfmul 0x14D c m2 ^^^ gfmul 0x14D d m3 ^^^
      gfmul 0x14D e m4 ^^^ gfmul 0x14D f m5 ^^^ gfmul 0x14D g m6 ^^^ gfmul 0x14D h m7
    rsReduce [m0, m1, m2, m3, m4, m5, m6, m7] =
      wordOf (row 0x01 0xA4 0x55 0x87 0x5A 0x58 0xDB 0x9E) (row 0xA4 0x56 0x82 0xF3 0x1E 0xC6 0x68 0xE5)
        (row 0x02 0xA1 0xFC 0xC1 0x47 0xAE 0x3D 0x19) (row 0xA4 0x55 0x87 0x5A 0x58 0xDB 0x9E 0x03)

/-- R183, R184, R185: HFUNC's words, and that it writes RESULT with h(OPA, (HL0, ..., HL(K-1))) and leaves the MDS tables built. The
premise on the tables is the invariant of R50. The four bytes of hbytes are the two layers of every key length, and a third and a
fourth word each add a layer before them. -/
def Obligations.HfuncWritesH : Prop :=
  hasWord .hfuncK2 0x00000204 ∧ hasWord .hfuncK3 0x00000304 ∧ hasWord .hfuncK4 0x00000404 ∧
  (∀ x a b c d : Word,
    (hbyte 0 x [a, b] = q1 (q0 (q0 (byteOf 0 x) ^^^ byteOf 0 b) ^^^ byteOf 0 a) ∧
     hbyte 1 x [a, b] = q0 (q0 (q1 (byteOf 1 x) ^^^ byteOf 1 b) ^^^ byteOf 1 a) ∧
     hbyte 2 x [a, b] = q1 (q1 (q0 (byteOf 2 x) ^^^ byteOf 2 b) ^^^ byteOf 2 a) ∧
     hbyte 3 x [a, b] = q0 (q1 (q1 (byteOf 3 x) ^^^ byteOf 3 b) ^^^ byteOf 3 a)) ∧
    ∀ j, hbyte j x [a, b, c] =
        hbyte j (wordOf (q1 (byteOf 0 x)) (q1 (byteOf 1 x)) (q0 (byteOf 2 x)) (q0 (byteOf 3 x)) ^^^ c) [a, b] ∧
      hbyte j x [a, b, c, d] =
        hbyte j (wordOf (q1 (byteOf 0 x)) (q0 (byteOf 1 x)) (q0 (byteOf 2 x)) (q1 (byteOf 3 x)) ^^^ d) [a, b, c]) ∧
  ∀ s : State, s.taint = false → (s.mdsValid = true → s.mds = mdsTables) →
    ∀ r ∈ [(Instr.hfuncK2, [s.hl.w0, s.hl.w1]), (.hfuncK3, [s.hl.w0, s.hl.w1, s.hl.w2]),
           (.hfuncK4, [s.hl.w0, s.hl.w1, s.hl.w2, s.hl.w3])],
      exec r.1 s = .next
        { s with result := mdsEntry 0 (hbyte 0 s.opa r.2) ^^^ mdsEntry 1 (hbyte 1 s.opa r.2) ^^^
                           mdsEntry 2 (hbyte 2 s.opa r.2) ^^^ mdsEntry 3 (hbyte 3 s.opa r.2),
                 mds := mdsTables, mdsValid := true,
                 busy := false, done := true, err := false, errcode := .none, taint := false }

/-- R186 to R189, R191: KEYSCHED with a legal KEYLEN builds the key context, entry by entry, and the MDS tables. -/
def Obligations.KeyschedBuildsTheContext : Prop :=
  ∀ (s : State) (k : Nat), s.taint = false → (s.mdsValid = true → s.mds = mdsTables) →
    (s.keylen, k) ∈ [((16 : Word), 2), (24, 3), (32, 4)] →
    ∃ c, exec .keysched s = .next
        { s with ctx := c, mds := mdsTables, mdsValid := true,
                 busy := false, done := true, err := false, errcode := .none, taint := false } ∧
      c.valid = true ∧ c.keysz.toNat = k - 1 ∧
      (∀ i : Fin 20,
        let a := hFunc mdsTables (BitVec.ofNat 32 (2 * i.val) * 0x01010101) ((List.range k).map fun m => keyWord s.key (2 * m))
        let b := rol (hFunc mdsTables (BitVec.ofNat 32 (2 * i.val + 1) * 0x01010101)
          ((List.range k).map fun m => keyWord s.key (2 * m + 1))) 8
        c.subkey[2 * i.val] = a + b ∧ c.subkey[2 * i.val + 1] = rol (a + 2 * b) 9) ∧
      (∀ n : Fin 4, c.sword.get n =
        if n.val < k then rsReduce (wordBytes (keyWord s.key (2 * n.val)) ++ wordBytes (keyWord s.key (2 * n.val + 1))) else 0) ∧
      (∀ j x, c.sbox.entry j x =
        mdsEntry j (hbyte j (x.setWidth 32 * 0x01010101) ((List.range k).map (swordOf s.key)).reverse))

/-- R323: KEYSCHED with any other KEYLEN fails with KEYSIZE and keeps the previous key context. -/
def Obligations.KeyschedRejectsOtherLengths : Prop :=
  hasWord .keysched 0x00000005 ∧
  ∀ s : State, s.taint = false → s.keylen ≠ 16 → s.keylen ≠ 24 → s.keylen ≠ 32 → failsWith .keysched s .keysize

/-- R191, R44: the context depends on KEYLEN and the first KEYLEN key bytes only. -/
def Obligations.ContextDependsOnTheKeyBytesOnly : Prop :=
  ∀ (s s' : State) (k : Nat), s.taint = false → s'.taint = false →
    (s.mdsValid = true → s.mds = mdsTables) → (s'.mdsValid = true → s'.mds = mdsTables) →
    (s.keylen, k) ∈ [((16 : Word), 2), (24, 3), (32, 4)] → s'.keylen = s.keylen →
    (∀ i, i < 2 * k → keyWord s'.key i = keyWord s.key i) →
    ∃ t t', exec .keysched s = .next t ∧ exec .keysched s' = .next t' ∧ t'.ctx = t.ctx

/-- R192: KEYCLR's word, and that it zeroes the key registers and the key context. -/
def Obligations.KeyclrErasesTheKey : Prop :=
  hasWord .keyclr 0x00000006 ∧ ∀ s : State, s.taint = false →
    ∃ (k : Vector Word 8) (c : KeyCtx), exec .keyclr s = .next
      { s with key := k, ctx := c, busy := false, done := true, err := false, errcode := .none, taint := false } ∧
    (∀ i : Fin 8, k[i] = 0) ∧ (∀ i : Fin 40, c.subkey[i] = 0) ∧ (∀ i, c.sword.get i = 0) ∧ (∀ j x, c.sbox.entry j x = 0) ∧
    c.valid = false ∧ c.keysz = 0

/-- R193: GFUNC's word, and that with a key context it writes RESULT with g(OPA), and without one fails with NOKEY. -/
def Obligations.GfuncWritesG : Prop :=
  hasWord .gfunc 0x00000007 ∧ ∀ s : State, s.taint = false →
    (s.ctx.valid = true → exec .gfunc s = .next
      { s with result := s.ctx.sbox.entry 0 (byteOf 0 s.opa) ^^^ s.ctx.sbox.entry 1 (byteOf 1 s.opa) ^^^
                         s.ctx.sbox.entry 2 (byteOf 2 s.opa) ^^^ s.ctx.sbox.entry 3 (byteOf 3 s.opa),
               busy := false, done := true, err := false, errcode := .none, taint := false }) ∧
    (s.ctx.valid = false → failsWith .gfunc s .nokey)

/-- R230 to R232, R236, R237: ENCBLK's and DECBLK's words, and that with a key context they write DOUT with E_K and D_K of DIN, and
without one fail with NOKEY. E_K is the input whitening, sixteen rounds, the last swap undone, and the output whitening. (D_K is its
inverse: DecryptionInvertsEncryption.) -/
def Obligations.BlockCommandsWriteDout : Prop :=
  hasWord .encblk 0x00000008 ∧ hasWord .decblk 0x00000009 ∧
  (∀ (c : KeyCtx) (p : Quad),
    let q := (List.finRange 16).foldl (fun q r => feistelRound c r q)
      ⟨p.w0 ^^^ c.subkey[0], p.w1 ^^^ c.subkey[1], p.w2 ^^^ c.subkey[2], p.w3 ^^^ c.subkey[3]⟩
    encryptBlock c p = ⟨q.w2 ^^^ c.subkey[4], q.w3 ^^^ c.subkey[5], q.w0 ^^^ c.subkey[6], q.w1 ^^^ c.subkey[7]⟩) ∧
  ∀ s : State, s.taint = false →
    (s.ctx.valid = true →
      exec .encblk s = .next
        { s with dout := encryptBlock s.ctx s.din,
                 busy := false, done := true, err := false, errcode := .none, taint := false } ∧
      exec .decblk s = .next
        { s with dout := decryptBlock s.ctx s.din,
                 busy := false, done := true, err := false, errcode := .none, taint := false }) ∧
    (s.ctx.valid = false → failsWith .encblk s .nokey ∧ failsWith .decblk s .nokey)

/-- R264: CHAININIT's word, and that it copies IV to CHAIN. -/
def Obligations.ChaininitCopiesIv : Prop :=
  hasWord .chaininit 0x0000000C ∧ ∀ s : State, s.taint = false →
    exec .chaininit s = .next
      { s with chain := s.iv, busy := false, done := true, err := false, errcode := .none, taint := false }

/-- R265: IVGEN's word, and that it writes IV with 16 bytes drawn from ENTROPY, or fails with ILLEGAL_CMD where HAS_RNG = 0. The
counter of draws is the model's own (log entry 6). -/
def Obligations.IvgenDrawsTheIv : Prop :=
  hasWord .ivgen 0x0000000D ∧ ∀ s : State, s.taint = false →
    (s.params.hasRng = true → exec .ivgen s = .next
      { s with iv := quadOfBytes ((List.range 16).map fun i => Config.entropy s.draws i), draws := s.draws + 1,
               busy := false, done := true, err := false, errcode := .none, taint := false }) ∧
    (s.params.hasRng = false → failsWith .ivgen s .illegalCmd)

/-- R266, R267: CBCENC's and CBCDEC's words. CBCENC with a key context writes DOUT and CHAIN with E_K(DIN xor CHAIN). CBCDEC
writes DOUT with D_K(DIN) xor CHAIN, and CHAIN with the ciphertext block DIN. Without a key context both fail with NOKEY. -/
def Obligations.CbcCommandsChain : Prop :=
  hasWord .cbcenc 0x0000000A ∧ hasWord .cbcdec 0x0000000B ∧ ∀ s : State, s.taint = false →
    (s.ctx.valid = true →
      exec .cbcenc s = .next
        { s with dout := encryptBlock s.ctx (quadXor s.din s.chain), chain := encryptBlock s.ctx (quadXor s.din s.chain),
                 busy := false, done := true, err := false, errcode := .none, taint := false } ∧
      exec .cbcdec s = .next
        { s with dout := quadXor (decryptBlock s.ctx s.din) s.chain, chain := s.din,
                 busy := false, done := true, err := false, errcode := .none, taint := false }) ∧
    (s.ctx.valid = false → failsWith .cbcenc s .nokey ∧ failsWith .cbcdec s .nokey)

/-- R260, R268: PAD's word, and that it writes the padded message to OUTBUF and its length to OUTLEN, or fails with LENGTH.
Every other byte of the buffers reads as before. -/
def Obligations.PadWritesThePaddedMessage : Prop :=
  hasWord .pad 0x00000010 ∧ ∀ s : State, s.taint = false →
    let n := 16 - msgLen s % 16
    let out := s.inbuf (msgLen s) ++ List.replicate n (BitVec.ofNat 8 n)
    (msgLen s + n ≤ s.params.bufBytes →
      ∃ t, exec .pad s = .next t ∧
        t = { s with mem := t.mem, outlen := BitVec.ofNat 32 out.length,
                     busy := false, done := true, err := false, errcode := .none, taint := false } ∧
        ∀ a, t.byteAt a = if 0x8000 ≤ a ∧ a < 0x8000 + out.length then out.getD (a - 0x8000) 0 else s.byteAt a) ∧
    (s.params.bufBytes < msgLen s + n → failsWith .pad s .length)

/-- R269: UNPAD's word, and that it writes the stripped message to OUTBUF and its length to OUTLEN, or fails with LENGTH or
PADDING. Every other byte of the buffers reads as before. -/
def Obligations.UnpadStripsThePadding : Prop :=
  hasWord .unpad 0x00000011 ∧ ∀ s : State, s.taint = false →
    (∀ out, msgLen s ≤ s.params.bufBytes → unpadBytes (s.inbuf (msgLen s)) = .ok out →
      ∃ t, exec .unpad s = .next t ∧
        t = { s with mem := t.mem, outlen := BitVec.ofNat 32 out.length,
                     busy := false, done := true, err := false, errcode := .none, taint := false } ∧
        ∀ a, t.byteAt a = if 0x8000 ≤ a ∧ a < 0x8000 + out.length then out.getD (a - 0x8000) 0 else s.byteAt a) ∧
    (msgLen s ≤ s.params.bufBytes → unpadBytes (s.inbuf (msgLen s)) = .error .padding → failsWith .unpad s .padding) ∧
    (s.params.bufBytes < msgLen s → failsWith .unpad s .length)

/-- R270: MSGENC's word, and that with a key context and room in OUTBUF it writes `IV || cbc_enc(IV, pad(m))` and its length.
Every other byte of the buffers reads as before. It fails with NOKEY without a key context, else with LENGTH without room. -/
def Obligations.MsgencWritesIvAndCiphertext : Prop :=
  hasWord .msgenc 0x00000012 ∧ ∀ s : State, s.taint = false →
    let out := quadBytes s.iv ++
      blocksBytes (cbcEncrypt (encryptBlock s.ctx) s.iv (blocksOf (padBytes (s.inbuf (msgLen s)))))
    (s.ctx.valid = true → 16 + 16 * (msgLen s / 16) + 16 ≤ s.params.bufBytes →
      ∃ t, exec .msgenc s = .next t ∧ out.length = 16 * (msgLen s / 16) + 32 ∧
        t = { s with mem := t.mem, outlen := BitVec.ofNat 32 out.length,
                     busy := false, done := true, err := false, errcode := .none, taint := false } ∧
        ∀ a, t.byteAt a = if 0x8000 ≤ a ∧ a < 0x8000 + out.length then out.getD (a - 0x8000) 0 else s.byteAt a) ∧
    (s.ctx.valid = false → failsWith .msgenc s .nokey) ∧
    (s.ctx.valid = true → s.params.bufBytes < 16 + 16 * (msgLen s / 16) + 16 → failsWith .msgenc s .length)

/-- R271: MSGDEC's word, and that with a key context it writes the unpadded plaintext of INBUF's `IV || ciphertext` and its
length. Every other byte of the buffers reads as before. It fails with NOKEY, LENGTH, BLOCKSIZE and PADDING, in this order. -/
def Obligations.MsgdecWritesThePlaintext : Prop :=
  hasWord .msgdec 0x00000013 ∧ ∀ s : State, s.taint = false →
    let plain := blocksBytes (cbcDecrypt (decryptBlock s.ctx) (quadOfBytes ((s.inbuf (msgLen s)).take 16))
      (blocksOf ((s.inbuf (msgLen s)).drop 16)))
    (s.ctx.valid = false → failsWith .msgdec s .nokey) ∧
    (s.ctx.valid = true → s.params.bufBytes < msgLen s → failsWith .msgdec s .length) ∧
    (s.ctx.valid = true → msgLen s ≤ s.params.bufBytes → msgLen s < 16 ∨ msgLen s % 16 ≠ 0 →
      failsWith .msgdec s .blocksize) ∧
    (s.ctx.valid = true → msgLen s ≤ s.params.bufBytes → 16 ≤ msgLen s → msgLen s % 16 = 0 →
      (unpadBytes plain = .error .padding → failsWith .msgdec s .padding) ∧
      ∀ out, unpadBytes plain = .ok out →
        ∃ t, exec .msgdec s = .next t ∧
          t = { s with mem := t.mem, outlen := BitVec.ofNat 32 out.length,
                       busy := false, done := true, err := false, errcode := .none, taint := false } ∧
          ∀ a, t.byteAt a = if 0x8000 ≤ a ∧ a < 0x8000 + out.length then out.getD (a - 0x8000) 0 else s.byteAt a)

/-- R321 to R327, R329: the error code of an untainted completion is the first condition that holds, in the fixed order. -/
def Obligations.ErrorsAreReportedInOrder : Prop :=
  ∀ (i : Instr) (s : State), s.taint = false → ∃ t, exec i s = .next t ∧ t.errcode = firstError i s

/-- R330: a failing command writes only STATUS. -/
def Obligations.FailingCommandWritesOnlyStatus : Prop :=
  ∀ (i : Instr) (s t : State), s.taint = false → exec i s = .next t → t.errcode ≠ .none →
    t = { s with busy := false, done := true, err := true, errcode := t.errcode, taint := false }

/-- R311, R320, R94: every command in every state, tainted or not, completes in one step, with ERR going with ERRCODE. -/
def Obligations.EveryCommandCompletes : Prop :=
  ∀ (i : Instr) (s : State), ∃ t, exec i s = .next t ∧ t.busy = false ∧ t.done = true ∧ t.taint = false ∧
    (t.err = true ↔ t.errcode ≠ .none) ∧ t.params = s.params ∧ t.irqen = s.irqen ∧ t.overrun = s.overrun ∧
    t.lastcmd = s.lastcmd ∧ t.host = s.host ∧ t.reads = s.reads

/-- 10_state.md, table after R48: no command, tainted or not, changes what a HOST read finds outside its write set. STATUS is
left out, and so are the key registers, which read 0: they change in KEYCLR only. -/
def Obligations.CommandsKeepToTheirWriteSet : Prop :=
  ∀ (i : Instr) (s t : State), exec i s = .next t →
    (∀ l : Loc, inWriteSet s i l = false → l ≠ .status → l.mapped s.params → t.valueAt l = s.valueAt l) ∧
    (i ≠ .keyclr → t.key = s.key) ∧ (i ≠ .keysched → i ≠ .keyclr → t.ctx = s.ctx)

/-- R311, R156, R50, R36: a tainted completion keeps the MDS tables exact and the invariants of STATUS, and builds the tables
exactly if the command calls ensureMDS, which a KEYSCHED with an illegal KEYLEN does not (log entry 8). -/
def Obligations.TaintedCompletionKeepsMdsExact : Prop :=
  ∀ (i : Instr) (s t : State), s.taint = true → exec i s = .next t →
    s.mds = (if s.mdsValid then mdsTables else Tables.zero) → (s.ctx.valid = false → s.ctx.keysz = 0) →
    t.mds = (if t.mdsValid then mdsTables else Tables.zero) ∧ (t.ctx.valid = false → t.ctx.keysz = 0) ∧
    (t.err = true ↔ t.errcode ≠ .none) ∧ (s.mdsValid = true → t.mdsValid = true) ∧
    (i ∈ [Instr.mdsgen, .hfuncK2, .hfuncK3, .hfuncK4] → t.mdsValid = true) ∧
    (i = .keysched → s.keylen ∈ [(16 : Word), 24, 32] → t.mdsValid = true) ∧
    (i = .keysched → s.keylen ∉ [(16 : Word), 24, 32] → t.mdsValid = s.mdsValid) ∧
    (i ∉ [Instr.mdsgen, .hfuncK2, .hfuncK3, .hfuncK4, .keysched] → t.mdsValid = s.mdsValid)

/-! ### The functions -/

/-- R151: the laws of the product, for both polynomials, with an inverse of every byte but 0. -/
def Obligations.GfmulLaws : Prop :=
  ∀ P ∈ [(0x14D : Poly), 0x169], ∀ a b c : Byte,
    gfmul P a b = gfmul P b a ∧ gfmul P 0 b = 0 ∧ gfmul P 1 b = b ∧
    gfmul P a (b ^^^ c) = gfmul P a b ^^^ gfmul P a c ∧
    gfmul P (gfmul P a b) c = gfmul P a (gfmul P b c) ∧
    gfmul P 2 a = (a <<< 1) ^^^ (if a.getLsbD 7 then P.setWidth 8 else 0) ∧ (a ≠ 0 → ∃ d, gfmul P a d = 1)

/-- R154: each table entry is a column of the MDS matrix times x, byte by byte, with 5B·x and EF·x as xors of doublings. -/
def Obligations.MdsEntriesAreColumns : Prop :=
  ∀ x : Byte,
    let d (n : Nat) : Byte := gfmul 0x169 (BitVec.ofNat 8 n) x
    let x5B := x ^^^ d 2 ^^^ d 8 ^^^ d 16 ^^^ d 64
    let xEF := x ^^^ d 2 ^^^ d 4 ^^^ d 8 ^^^ d 32 ^^^ d 64 ^^^ d 128
    mdsEntry 0 x = wordOf x x5B xEF xEF ∧ mdsEntry 1 x = wordOf xEF xEF x5B x ∧
    mdsEntry 2 x = wordOf x5B xEF x xEF ∧ mdsEntry 3 x = wordOf x5B x xEF x5B

/-- R180 to R182: Q0 and Q1 are permutations of the bytes, with the entries of the spec's tables. -/
def Obligations.QTablesArePermutations : Prop :=
  Function.Bijective q0 ∧ Function.Bijective q1 ∧
  ((List.range 256).map fun x => q0 (BitVec.ofNat 8 x)) = q0Table ∧
  ((List.range 256).map fun x => q1 (BitVec.ofNat 8 x)) = q1Table

/-- R190: with the S-boxes of a key, the G step is the H-function over the S list. -/
def Obligations.GStepIsHOverTheSList : Prop :=
  ∀ (mds : Tables) (key : Vector Word 8) (k : Nat) (x : Word),
    gFunc (keySchedule mds key k).sbox x = hFunc mds x ((List.range k).map (swordOf key)).reverse

/-- R235: D_K inverts E_K and E_K inverts D_K, for every key context and block. E_K is a permutation of the blocks. -/
def Obligations.DecryptionInvertsEncryption : Prop :=
  ∀ c : KeyCtx, (∀ x, decryptBlock c (encryptBlock c x) = x) ∧ (∀ x, encryptBlock c (decryptBlock c x) = x) ∧
    Function.Bijective (encryptBlock c)

/-- R263: CBC decryption gives back what CBC encryption was given, for every key context, IV and list of blocks. -/
def Obligations.CbcDecryptionInvertsEncryption : Prop :=
  ∀ (c : KeyCtx) (iv : Quad) (ps : List Quad),
    cbcDecrypt (decryptBlock c) iv (cbcEncrypt (encryptBlock c) iv ps) = ps

/-- R261: unpad accepts exactly a message followed by N bytes of value N, N from 1 to 16, and fails with PADDING on every
other byte string. -/
def Obligations.UnpadAcceptsExactlyPaddedMessages : Prop :=
  ∀ m : List Byte,
    (∀ r, unpadBytes m = .ok r ↔ ∃ n, 1 ≤ n ∧ n ≤ 16 ∧ m = r ++ List.replicate n (BitVec.ofNat 8 n)) ∧
    (∀ c, unpadBytes m = .error c → c = .padding) ∧ unpadBytes (padBytes m) = .ok m

/-- R270, R271: what MSGENC leaves in OUTBUF, placed in the INBUF of any untainted state with the same key context and enough
buffer, is decrypted by MSGDEC to the message that MSGENC was given. -/
def Obligations.MsgdecRecoversWhatMsgencSealed : Prop :=
  ∀ s u : State, s.taint = false → s.ctx.valid = true → 16 * (msgLen s / 16) + 32 ≤ s.params.bufBytes →
    u.taint = false → u.ctx = s.ctx → 16 * (msgLen s / 16) + 32 ≤ u.params.bufBytes →
    ∃ t, exec .msgenc s = .next t ∧
      (u.msglen = t.outlen → u.inbuf t.outlen.toNat = t.bytesAt outbufBase t.outlen.toNat →
        ∃ v, exec .msgdec u = .next v ∧ v.errcode = .none ∧ v.outlen = s.msglen ∧
          v.bytesAt outbufBase s.msglen.toNat = s.inbuf s.msglen.toNat)

/-! ### Invariants and whole-machine rules -/

/-- The invariant holds after power-on reset, for all parameters. -/
def Obligations.InvariantHoldsAtReset : Prop := ∀ p : Params, (State.powerOn p).Inv

/-- R36, R50, R52, R53, R310, R313: every step keeps the invariant. -/
def Obligations.StepKeepsTheInvariant : Prop :=
  ∀ s t : State, s.Inv → step s = .next t → t.Inv

/-- R34: no step changes the parameters, and so ID and CAPS read as before. -/
def Obligations.ParametersNeverChange : Prop :=
  ∀ s t : State, step s = .next t → t.params = s.params ∧ t.valueAt .id = s.valueAt .id ∧ t.valueAt .caps = s.valueAt .caps

/-- R49: only the completion of KEYSCHED or KEYCLR changes the key context, and a reset, which clears it. -/
def Obligations.KeyContextChangesOnlyByKeyCommands : Prop :=
  ∀ s t : State, step s = .next t → t.ctx ≠ s.ctx →
    (s.coreTurn = true ∧
      (decode s.params s.pending = .command .keysched ∨ decode s.params s.pending = .command .keyclr)) ∨
    (t.resets = s.resets + 1 ∧ t.ctx = KeyCtx.empty)

/-- R50: once MDS_VALID is 1, no step but a reset changes the MDS tables or MDS_VALID. -/
def Obligations.MdsTablesStayOnceValid : Prop :=
  ∀ s t : State, s.mdsValid = true → step s = .next t →
    (t.mdsValid = true ∧ t.mds = s.mds) ∨ (t.resets = s.resets + 1 ∧ t.mdsValid = false)

/-- R9, R44, R103: with READBACK = 0 no HOST read tells apart two states that differ in the key registers and the key-derived
tables only. -/
def Obligations.ReadbackOffHidesKeyMaterial : Prop :=
  ∀ (s : State) (key : Vector Word 8) (subkey : Vector Word 40) (sword : Quad) (sbox : Tables) (l : Loc),
    s.params.readback = false →
    (State.hostRead { s with key := key, ctx := { s.ctx with subkey := subkey, sword := sword, sbox := sbox } } l).reads =
      (s.hostRead l).reads
end

