-- ==== Sys2Proof/Laws/Bytes.lean ====
section
/-! SUPPORT. The small laws of the byte order, the blocks, the rotations and the tables. -/

namespace Sys2Proof.Machine

@[simp] theorem byteOf_zero_wordOf (a b c d : Byte) : byteOf 0 (wordOf a b c d) = a := by
  ext i hi
  simp [byteOf, wordOf, place, hi, show i < 16 by omega, show i < 24 by omega, show i < 32 by omega, BitVec.getLsbD_eq_getElem]

@[simp] theorem byteOf_one_wordOf (a b c d : Byte) : byteOf 1 (wordOf a b c d) = b := by
  ext i hi
  simp [byteOf, wordOf, place, hi, show 8 + i < 16 by omega, show 8 + i < 24 by omega, show 8 + i < 32 by omega,
    BitVec.getLsbD_eq_getElem]

@[simp] theorem byteOf_two_wordOf (a b c d : Byte) : byteOf 2 (wordOf a b c d) = c := by
  ext i hi
  simp [byteOf, wordOf, place, hi, show 16 + i < 24 by omega, show 16 + i < 32 by omega,
    BitVec.getLsbD_eq_getElem, BitVec.getLsbD_of_ge a (16 + i) (by omega), BitVec.getLsbD_of_ge b (16 + i - 8) (by omega)]

@[simp] theorem byteOf_three_wordOf (a b c d : Byte) : byteOf 3 (wordOf a b c d) = d := by
  ext i hi
  simp [byteOf, wordOf, place, hi, show 24 + i < 32 by omega, BitVec.getLsbD_eq_getElem,
    BitVec.getLsbD_of_ge a (24 + i) (by omega), BitVec.getLsbD_of_ge b (24 + i - 8) (by omega),
    BitVec.getLsbD_of_ge c (24 + i - 16) (by omega)]

/-- A word is the word of its bytes. -/
@[simp] theorem wordOf_byteOf (w : Word) : wordOf (byteOf 0 w) (byteOf 1 w) (byteOf 2 w) (byteOf 3 w) = w := by
  ext i hi
  have : i < 8 ∨ (8 ≤ i ∧ i < 16) ∨ (16 ≤ i ∧ i < 24) ∨ 24 ≤ i := by omega
  obtain h | ⟨h, h'⟩ | ⟨h, h'⟩ | h := this
  all_goals
    simp [byteOf, wordOf, place, hi, BitVec.getLsbD_eq_getElem]
    grind

/-- A byte of a xor. -/
@[simp] theorem byteOf_xor (j : Nat) (a b : Word) : byteOf j (a ^^^ b) = byteOf j a ^^^ byteOf j b := by
  simp [byteOf, BitVec.extractLsb'_xor]

@[simp] theorem wordBytes_length (w : Word) : (wordBytes w).length = 4 := rfl

@[simp] theorem quadBytes_length (q : Quad) : (quadBytes q).length = 16 := rfl

/-- `wordsLE` undoes `bytesLE` on a block (R13). -/
@[simp] theorem quadOfBytes_quadBytes (q : Quad) : quadOfBytes (quadBytes q) = q := by
  simp [quadOfBytes, quadBytes, wordBytes]

/-- The same for a block at the head of a byte string. -/
@[simp] theorem quadOfBytes_take (q : Quad) (bs : List Byte) : quadOfBytes ((quadBytes q ++ bs).take 16) = q := by
  rw [List.take_left' (quadBytes_length q)]; exact quadOfBytes_quadBytes q

@[simp] theorem blocksOf_nil : blocksOf [] = [] := rfl

/-- The first block of a byte string that starts with a block. -/
@[simp] theorem blocksOf_quadBytes_append (q : Quad) (bs : List Byte) : blocksOf (quadBytes q ++ bs) = q :: blocksOf bs := by
  simp [quadBytes, wordBytes, blocksOf]

@[simp] theorem blocksBytes_nil : blocksBytes [] = [] := rfl

@[simp] theorem blocksBytes_cons (q : Quad) (qs : List Quad) : blocksBytes (q :: qs) = quadBytes q ++ blocksBytes qs := rfl

/-- The blocks of the bytes of blocks. -/
@[simp] theorem blocksOf_blocksBytes (qs : List Quad) : blocksOf (blocksBytes qs) = qs := by
  induction qs with
  | nil => rfl
  | cons q qs ih => simp [ih]

@[simp] theorem blocksBytes_length (qs : List Quad) : (blocksBytes qs).length = 16 * qs.length := by
  induction qs with
  | nil => rfl
  | cons q qs ih => simp [ih]; omega

/-- The bytes of the blocks of a byte string of whole blocks. -/
theorem blocksBytes_blocksOf (bs : List Byte) (h : bs.length % 16 = 0) : blocksBytes (blocksOf bs) = bs := by
  induction bs using blocksOf.induct with
  | case1 b0 b1 b2 b3 b4 b5 b6 b7 b8 b9 b10 b11 b12 b13 b14 b15 rest ih =>
    have hr : rest.length % 16 = 0 := by simp at h; omega
    simp [blocksOf, ih hr, quadBytes, wordBytes]
  | case2 bs hne =>
    have hl : bs.length < 16 := by
      by_contra hge
      match bs, hge with
      | b0 :: b1 :: b2 :: b3 :: b4 :: b5 :: b6 :: b7 :: b8 :: b9 :: b10 :: b11 :: b12 :: b13 :: b14 :: b15 :: rest, _ =>
        exact hne _ _ _ _ _ _ _ _ _ _ _ _ _ _ _ _ _ rfl
    have hz : bs = [] := List.length_eq_zero_iff.mp (by omega)
    subst hz; rfl

/-- xor with the same block twice. -/
@[simp] theorem quadXor_cancel (a b : Quad) : quadXor (quadXor a b) b = a := by
  simp [quadXor]

@[simp] theorem swapPairs_swapPairs (q : Quad) : swapPairs (swapPairs q) = q := rfl

@[simp] theorem rol_ror_one (w : Word) : rol (ror w 1) 1 = w := by
  ext i hi
  simp only [rol, ror, BitVec.getElem_rotateLeft, BitVec.getElem_rotateRight]
  grind

@[simp] theorem ror_rol_one (w : Word) : ror (rol w 1) 1 = w := by
  ext i hi
  simp only [rol, ror, BitVec.getElem_rotateLeft, BitVec.getElem_rotateRight]
  grind

/-- What a built table holds. -/
@[simp] theorem Table.entry_build (f : Byte → Word) (x : Byte) : (Table.build f).entry x = f x := by
  simp [Table.entry, Table.build]

/-- What built tables hold. -/
@[simp] theorem Tables.entry_build (f : Fin 4 → Byte → Word) (j : Fin 4) (x : Byte) : (Tables.build f).entry j x = f j x := by
  fin_cases j <;> simp [Tables.entry, Tables.build]

@[simp] theorem Quad.get_set_same (q : Quad) (i : Fin 4) (v : Word) : (q.set i v).get i = v := by
  fin_cases i <;> rfl

theorem Quad.get_set_ne (q : Quad) (i j : Fin 4) (v : Word) (h : j ≠ i) : (q.set i v).get j = q.get j := by
  fin_cases i <;> fin_cases j <;> first | rfl | exact absurd rfl h

@[simp] theorem codeSize_padCount (n : Nat) : 1 ≤ padCount n ∧ padCount n ≤ 16 := by
  unfold padCount; omega

@[simp] theorem padBytes_length (m : List Byte) : (padBytes m).length = 16 * (m.length / 16) + 16 := by
  simp [padBytes, padCount]; omega

@[simp] theorem cbcEncrypt_length (enc : Quad → Quad) (prev : Quad) (ps : List Quad) :
    (cbcEncrypt enc prev ps).length = ps.length := by
  induction ps generalizing prev with
  | nil => rfl
  | cons p ps ih => simp [cbcEncrypt, ih]

end Sys2Proof.Machine
end

