-- ==== Sys2Proof/Laws/Memory.lean ====
section
/-! SUPPORT. The laws of the byte memory: what a store leaves, and that every operation keeps the canonical form. -/

namespace Sys2Proof.Machine

@[simp] theorem Memory.read?_nil (a : Nat) : Memory.read? [] a = none := rfl

theorem Memory.read?_cons (c : Host.Cell) (m : Memory) (a : Nat) :
    Memory.read? (c :: m) a = if c.1 = a then some c.2 else Memory.read? m a := rfl

/-- A read in joined memories: the first one answers where it can. -/
theorem Memory.read?_append (m n : Memory) (a : Nat) :
    Memory.read? (m ++ n) a = (Memory.read? m a).or (Memory.read? n a) := by
  induction m with
  | nil => simp
  | cons c m ih =>
    simp only [List.cons_append, Memory.read?_cons, ih]
    split <;> simp

/-- A read in the cells that a test on the address keeps. -/
theorem Memory.read?_filter (m : Memory) (q : Nat → Bool) (a : Nat) :
    Memory.read? (m.filter fun c => q c.1) a = if q a then Memory.read? m a else none := by
  induction m with
  | nil => simp
  | cons c m ih =>
    by_cases hc : q c.1
    · rw [List.filter_cons_of_pos (by simpa using hc), Memory.read?_cons, Memory.read?_cons, ih]
      by_cases h : c.1 = a
      · subst h; simp [hc]
      · simp [h]
    · rw [List.filter_cons_of_neg (by simpa using hc), Memory.read?_cons, ih]
      by_cases h : c.1 = a
      · subst h; simp [hc]
      · simp [h]

/-- A read in the cells of a byte string. -/
theorem read?_cellsAt (base : Nat) (bs : List Byte) (a : Nat) :
    Memory.read? (cellsAt base bs) a = if base ≤ a then bs[a - base]? else none := by
  induction bs generalizing base with
  | nil => simp [cellsAt]
  | cons b bs ih =>
    simp only [cellsAt, Memory.read?_cons, ih]
    by_cases h : base = a
    · subst h; simp
    · by_cases h2 : base ≤ a
      · have : a - base = (a - (base + 1)) + 1 := by omega
        simp [h, h2, show base + 1 ≤ a by omega, this]
      · simp [h, h2, show ¬ base + 1 ≤ a by omega]

/-- THE law of a store: the stored bytes in their range, every other address as before. -/
theorem Memory.read?_store (m : Memory) (base : Nat) (bs : List Byte) (a : Nat) :
    (m.store base bs).read? a = if base ≤ a ∧ a < base + bs.length then bs[a - base]? else m.read? a := by
  simp only [Memory.store, Memory.read?_append, read?_cellsAt]
  rw [Memory.read?_filter m (fun x => decide (x < base)), Memory.read?_filter m (fun x => decide (base + bs.length ≤ x))]
  by_cases h1 : a < base
  · simp [h1, show ¬ base ≤ a by omega, show ¬ base + bs.length ≤ a by omega]
  · by_cases h2 : a < base + bs.length
    · have : a - base < bs.length := by omega
      simp [h1, h2, show base ≤ a by omega, this]
    · have : bs.length ≤ a - base := by omega
      simp [h1, h2, show base ≤ a by omega, show base + bs.length ≤ a by omega, this]

/-- The canonical form, said pairwise. -/
theorem Memory.wf_iff (m : Memory) : m.wf = true ↔ m.Pairwise fun c d => c.1 < d.1 := by
  induction m using Memory.wf.induct with
  | case1 => simp [Memory.wf]
  | case2 c => simp [Memory.wf]
  | case3 c d rest ih =>
    simp only [Memory.wf, Bool.and_eq_true, decide_eq_true_eq, ih, List.pairwise_cons]
    constructor
    · rintro ⟨h, hd, hr⟩
      refine ⟨?_, hd, hr⟩
      intro x hx
      rcases List.mem_cons.mp hx with rfl | hx
      · exact h
      · exact lt_trans h (hd x hx)
    · rintro ⟨hc, hd, hr⟩
      exact ⟨hc d (by simp), hd, hr⟩

theorem mem_cellsAt (base : Nat) (bs : List Byte) (c : Host.Cell) (h : c ∈ cellsAt base bs) :
    base ≤ c.1 ∧ c.1 < base + bs.length := by
  induction bs generalizing base with
  | nil => simp [cellsAt] at h
  | cons b bs ih =>
    rcases List.mem_cons.mp h with rfl | h
    · simp
    · have := ih (base + 1) h
      simp; omega

theorem cellsAt_pairwise (base : Nat) (bs : List Byte) : (cellsAt base bs).Pairwise fun c d => c.1 < d.1 := by
  induction bs generalizing base with
  | nil => simp [cellsAt]
  | cons b bs ih =>
    simp only [cellsAt, List.pairwise_cons]
    refine ⟨?_, ih (base + 1)⟩
    intro c hc
    have := mem_cellsAt _ _ _ hc
    simp; omega

/-- Every cell after a store is a cell of the stored bytes or was there before. -/
theorem Memory.mem_store (m : Memory) (base : Nat) (bs : List Byte) (c : Host.Cell) (h : c ∈ m.store base bs) :
    c ∈ m ∨ (base ≤ c.1 ∧ c.1 < base + bs.length) := by
  simp only [Memory.store, List.mem_append, List.mem_filter] at h
  rcases h with (h | h) | h
  · exact .inl h.1
  · exact .inr (mem_cellsAt _ _ _ h)
  · exact .inl h.1

/-- A store keeps the canonical form. -/
theorem Memory.store_wf (m : Memory) (base : Nat) (bs : List Byte) (h : m.wf = true) : (m.store base bs).wf = true := by
  rw [Memory.wf_iff] at h ⊢
  simp only [Memory.store, List.pairwise_append, List.mem_append, List.mem_filter, decide_eq_true_eq]
  refine ⟨⟨h.filter _, cellsAt_pairwise _ _, ?_⟩, h.filter _, ?_⟩
  · rintro c ⟨_, hc⟩ d hd
    have := mem_cellsAt _ _ _ hd
    omega
  · rintro c (⟨_, hc⟩ | hc) d ⟨_, hd⟩
    · omega
    · have := mem_cellsAt _ _ _ hc
      omega

/-- The memory after reset is in canonical form. -/
theorem reset_mem_wf (p : Params) : (State.powerOn p).mem.wf = true := rfl

/-- A buffer byte after a store. -/
theorem byteAt_storeBytes (s : State) (base : Nat) (bs : List Byte) (a : Nat) :
    (s.storeBytes base bs).byteAt a = if base ≤ a ∧ a < base + bs.length then bs.getD (a - base) 0 else s.byteAt a := by
  simp only [State.byteAt, State.storeBytes, Memory.read?_store]
  split
  · next h =>
    have : a - base < bs.length := by omega
    simp [this]
  · rfl

/-- The bytes just stored read back. -/
theorem bytesAt_storeBytes (s : State) (base : Nat) (bs : List Byte) :
    (s.storeBytes base bs).bytesAt base bs.length = bs := by
  apply List.ext_getElem
  · simp [State.bytesAt]
  · intro i h1 h2
    simp [State.bytesAt, byteAt_storeBytes, h2]

@[simp] theorem bytesAt_length (s : State) (a n : Nat) : (s.bytesAt a n).length = n := by simp [State.bytesAt]

@[simp] theorem inbuf_length (s : State) (n : Nat) : (s.inbuf n).length = n := by simp [State.inbuf]

end Sys2Proof.Machine
end

