-- ==== Sys2Proof/Laws/State.lean ====
section
/-! SUPPORT. The fields of State after each named update: one lemma a field and update, so that no proof unfolds one. -/

namespace Sys2Proof.Machine

/-! ### finish -/

@[simp] theorem State.finish_params (s : State) (c : ErrCode) : (s.finish c).params = s.params := rfl

@[simp] theorem State.finish_irqen (s : State) (c : ErrCode) : (s.finish c).irqen = s.irqen := rfl

@[simp] theorem State.finish_busy (s : State) (c : ErrCode) : (s.finish c).busy = false := rfl

@[simp] theorem State.finish_done (s : State) (c : ErrCode) : (s.finish c).done = true := rfl

@[simp] theorem State.finish_err (s : State) (c : ErrCode) : (s.finish c).err = errOf c := rfl

@[simp] theorem State.finish_overrun (s : State) (c : ErrCode) : (s.finish c).overrun = s.overrun := rfl

@[simp] theorem State.finish_errcode (s : State) (c : ErrCode) : (s.finish c).errcode = c := rfl

@[simp] theorem State.finish_lastcmd (s : State) (c : ErrCode) : (s.finish c).lastcmd = s.lastcmd := rfl

@[simp] theorem State.finish_pending (s : State) (c : ErrCode) : (s.finish c).pending = s.pending := rfl

@[simp] theorem State.finish_taint (s : State) (c : ErrCode) : (s.finish c).taint = false := rfl

@[simp] theorem State.finish_opa (s : State) (c : ErrCode) : (s.finish c).opa = s.opa := rfl

@[simp] theorem State.finish_opb (s : State) (c : ErrCode) : (s.finish c).opb = s.opb := rfl

@[simp] theorem State.finish_result (s : State) (c : ErrCode) : (s.finish c).result = s.result := rfl

@[simp] theorem State.finish_keylen (s : State) (c : ErrCode) : (s.finish c).keylen = s.keylen := rfl

@[simp] theorem State.finish_msglen (s : State) (c : ErrCode) : (s.finish c).msglen = s.msglen := rfl

@[simp] theorem State.finish_outlen (s : State) (c : ErrCode) : (s.finish c).outlen = s.outlen := rfl

@[simp] theorem State.finish_hl (s : State) (c : ErrCode) : (s.finish c).hl = s.hl := rfl

@[simp] theorem State.finish_key (s : State) (c : ErrCode) : (s.finish c).key = s.key := rfl

@[simp] theorem State.finish_iv (s : State) (c : ErrCode) : (s.finish c).iv = s.iv := rfl

@[simp] theorem State.finish_chain (s : State) (c : ErrCode) : (s.finish c).chain = s.chain := rfl

@[simp] theorem State.finish_din (s : State) (c : ErrCode) : (s.finish c).din = s.din := rfl

@[simp] theorem State.finish_dout (s : State) (c : ErrCode) : (s.finish c).dout = s.dout := rfl

@[simp] theorem State.finish_ctx (s : State) (c : ErrCode) : (s.finish c).ctx = s.ctx := rfl

@[simp] theorem State.finish_mdsValid (s : State) (c : ErrCode) : (s.finish c).mdsValid = s.mdsValid := rfl

@[simp] theorem State.finish_mds (s : State) (c : ErrCode) : (s.finish c).mds = s.mds := rfl

@[simp] theorem State.finish_mem (s : State) (c : ErrCode) : (s.finish c).mem = s.mem := rfl

@[simp] theorem State.finish_host (s : State) (c : ErrCode) : (s.finish c).host = s.host := rfl

@[simp] theorem State.finish_reads (s : State) (c : ErrCode) : (s.finish c).reads = s.reads := rfl

@[simp] theorem State.finish_countdown (s : State) (c : ErrCode) : (s.finish c).countdown = s.countdown := rfl

@[simp] theorem State.finish_draws (s : State) (c : ErrCode) : (s.finish c).draws = s.draws := rfl

@[simp] theorem State.finish_resets (s : State) (c : ErrCode) : (s.finish c).resets = s.resets := rfl

/-! ### drawn -/

@[simp] theorem State.drawn_params (s : State) : s.drawn.params = s.params := rfl

@[simp] theorem State.drawn_irqen (s : State) : s.drawn.irqen = s.irqen := rfl

@[simp] theorem State.drawn_busy (s : State) : s.drawn.busy = s.busy := rfl

@[simp] theorem State.drawn_done (s : State) : s.drawn.done = s.done := rfl

@[simp] theorem State.drawn_err (s : State) : s.drawn.err = s.err := rfl

@[simp] theorem State.drawn_overrun (s : State) : s.drawn.overrun = s.overrun := rfl

@[simp] theorem State.drawn_errcode (s : State) : s.drawn.errcode = s.errcode := rfl

@[simp] theorem State.drawn_lastcmd (s : State) : s.drawn.lastcmd = s.lastcmd := rfl

@[simp] theorem State.drawn_pending (s : State) : s.drawn.pending = s.pending := rfl

@[simp] theorem State.drawn_taint (s : State) : s.drawn.taint = s.taint := rfl

@[simp] theorem State.drawn_opa (s : State) : s.drawn.opa = s.opa := rfl

@[simp] theorem State.drawn_opb (s : State) : s.drawn.opb = s.opb := rfl

@[simp] theorem State.drawn_result (s : State) : s.drawn.result = s.result := rfl

@[simp] theorem State.drawn_keylen (s : State) : s.drawn.keylen = s.keylen := rfl

@[simp] theorem State.drawn_msglen (s : State) : s.drawn.msglen = s.msglen := rfl

@[simp] theorem State.drawn_outlen (s : State) : s.drawn.outlen = s.outlen := rfl

@[simp] theorem State.drawn_hl (s : State) : s.drawn.hl = s.hl := rfl

@[simp] theorem State.drawn_key (s : State) : s.drawn.key = s.key := rfl

@[simp] theorem State.drawn_iv (s : State) : s.drawn.iv = s.iv := rfl

@[simp] theorem State.drawn_chain (s : State) : s.drawn.chain = s.chain := rfl

@[simp] theorem State.drawn_din (s : State) : s.drawn.din = s.din := rfl

@[simp] theorem State.drawn_dout (s : State) : s.drawn.dout = s.dout := rfl

@[simp] theorem State.drawn_ctx (s : State) : s.drawn.ctx = s.ctx := rfl

@[simp] theorem State.drawn_mdsValid (s : State) : s.drawn.mdsValid = s.mdsValid := rfl

@[simp] theorem State.drawn_mds (s : State) : s.drawn.mds = s.mds := rfl

@[simp] theorem State.drawn_mem (s : State) : s.drawn.mem = s.mem := rfl

@[simp] theorem State.drawn_host (s : State) : s.drawn.host = s.host := rfl

@[simp] theorem State.drawn_reads (s : State) : s.drawn.reads = s.reads := rfl

@[simp] theorem State.drawn_countdown (s : State) : s.drawn.countdown = s.countdown := rfl

@[simp] theorem State.drawn_draws (s : State) : s.drawn.draws = s.draws + 1 := rfl

@[simp] theorem State.drawn_resets (s : State) : s.drawn.resets = s.resets := rfl

/-! ### storeBytes -/

@[simp] theorem State.storeBytes_params (s : State) (a : Nat) (bs : List Byte) : (s.storeBytes a bs).params = s.params := rfl

@[simp] theorem State.storeBytes_irqen (s : State) (a : Nat) (bs : List Byte) : (s.storeBytes a bs).irqen = s.irqen := rfl

@[simp] theorem State.storeBytes_busy (s : State) (a : Nat) (bs : List Byte) : (s.storeBytes a bs).busy = s.busy := rfl

@[simp] theorem State.storeBytes_done (s : State) (a : Nat) (bs : List Byte) : (s.storeBytes a bs).done = s.done := rfl

@[simp] theorem State.storeBytes_err (s : State) (a : Nat) (bs : List Byte) : (s.storeBytes a bs).err = s.err := rfl

@[simp] theorem State.storeBytes_overrun (s : State) (a : Nat) (bs : List Byte) : (s.storeBytes a bs).overrun = s.overrun := rfl

@[simp] theorem State.storeBytes_errcode (s : State) (a : Nat) (bs : List Byte) : (s.storeBytes a bs).errcode = s.errcode := rfl

@[simp] theorem State.storeBytes_lastcmd (s : State) (a : Nat) (bs : List Byte) : (s.storeBytes a bs).lastcmd = s.lastcmd := rfl

@[simp] theorem State.storeBytes_pending (s : State) (a : Nat) (bs : List Byte) : (s.storeBytes a bs).pending = s.pending := rfl

@[simp] theorem State.storeBytes_taint (s : State) (a : Nat) (bs : List Byte) : (s.storeBytes a bs).taint = s.taint := rfl

@[simp] theorem State.storeBytes_opa (s : State) (a : Nat) (bs : List Byte) : (s.storeBytes a bs).opa = s.opa := rfl

@[simp] theorem State.storeBytes_opb (s : State) (a : Nat) (bs : List Byte) : (s.storeBytes a bs).opb = s.opb := rfl

@[simp] theorem State.storeBytes_result (s : State) (a : Nat) (bs : List Byte) : (s.storeBytes a bs).result = s.result := rfl

@[simp] theorem State.storeBytes_keylen (s : State) (a : Nat) (bs : List Byte) : (s.storeBytes a bs).keylen = s.keylen := rfl

@[simp] theorem State.storeBytes_msglen (s : State) (a : Nat) (bs : List Byte) : (s.storeBytes a bs).msglen = s.msglen := rfl

@[simp] theorem State.storeBytes_outlen (s : State) (a : Nat) (bs : List Byte) : (s.storeBytes a bs).outlen = s.outlen := rfl

@[simp] theorem State.storeBytes_hl (s : State) (a : Nat) (bs : List Byte) : (s.storeBytes a bs).hl = s.hl := rfl

@[simp] theorem State.storeBytes_key (s : State) (a : Nat) (bs : List Byte) : (s.storeBytes a bs).key = s.key := rfl

@[simp] theorem State.storeBytes_iv (s : State) (a : Nat) (bs : List Byte) : (s.storeBytes a bs).iv = s.iv := rfl

@[simp] theorem State.storeBytes_chain (s : State) (a : Nat) (bs : List Byte) : (s.storeBytes a bs).chain = s.chain := rfl

@[simp] theorem State.storeBytes_din (s : State) (a : Nat) (bs : List Byte) : (s.storeBytes a bs).din = s.din := rfl

@[simp] theorem State.storeBytes_dout (s : State) (a : Nat) (bs : List Byte) : (s.storeBytes a bs).dout = s.dout := rfl

@[simp] theorem State.storeBytes_ctx (s : State) (a : Nat) (bs : List Byte) : (s.storeBytes a bs).ctx = s.ctx := rfl

@[simp] theorem State.storeBytes_mdsValid (s : State) (a : Nat) (bs : List Byte) : (s.storeBytes a bs).mdsValid = s.mdsValid := rfl

@[simp] theorem State.storeBytes_mds (s : State) (a : Nat) (bs : List Byte) : (s.storeBytes a bs).mds = s.mds := rfl

@[simp] theorem State.storeBytes_mem (s : State) (a : Nat) (bs : List Byte) : (s.storeBytes a bs).mem = s.mem.store a bs := rfl

@[simp] theorem State.storeBytes_host (s : State) (a : Nat) (bs : List Byte) : (s.storeBytes a bs).host = s.host := rfl

@[simp] theorem State.storeBytes_reads (s : State) (a : Nat) (bs : List Byte) : (s.storeBytes a bs).reads = s.reads := rfl

@[simp] theorem State.storeBytes_countdown (s : State) (a : Nat) (bs : List Byte) : (s.storeBytes a bs).countdown = s.countdown := rfl

@[simp] theorem State.storeBytes_draws (s : State) (a : Nat) (bs : List Byte) : (s.storeBytes a bs).draws = s.draws := rfl

@[simp] theorem State.storeBytes_resets (s : State) (a : Nat) (bs : List Byte) : (s.storeBytes a bs).resets = s.resets := rfl

/-! ### ensureMds -/

@[simp] theorem State.ensureMds_params (s : State) : s.ensureMds.params = s.params := by
  unfold State.ensureMds; split <;> rfl

@[simp] theorem State.ensureMds_irqen (s : State) : s.ensureMds.irqen = s.irqen := by
  unfold State.ensureMds; split <;> rfl

@[simp] theorem State.ensureMds_busy (s : State) : s.ensureMds.busy = s.busy := by
  unfold State.ensureMds; split <;> rfl

@[simp] theorem State.ensureMds_done (s : State) : s.ensureMds.done = s.done := by
  unfold State.ensureMds; split <;> rfl

@[simp] theorem State.ensureMds_err (s : State) : s.ensureMds.err = s.err := by
  unfold State.ensureMds; split <;> rfl

@[simp] theorem State.ensureMds_overrun (s : State) : s.ensureMds.overrun = s.overrun := by
  unfold State.ensureMds; split <;> rfl

@[simp] theorem State.ensureMds_errcode (s : State) : s.ensureMds.errcode = s.errcode := by
  unfold State.ensureMds; split <;> rfl

@[simp] theorem State.ensureMds_lastcmd (s : State) : s.ensureMds.lastcmd = s.lastcmd := by
  unfold State.ensureMds; split <;> rfl

@[simp] theorem State.ensureMds_pending (s : State) : s.ensureMds.pending = s.pending := by
  unfold State.ensureMds; split <;> rfl

@[simp] theorem State.ensureMds_taint (s : State) : s.ensureMds.taint = s.taint := by
  unfold State.ensureMds; split <;> rfl

@[simp] theorem State.ensureMds_opa (s : State) : s.ensureMds.opa = s.opa := by
  unfold State.ensureMds; split <;> rfl

@[simp] theorem State.ensureMds_opb (s : State) : s.ensureMds.opb = s.opb := by
  unfold State.ensureMds; split <;> rfl

@[simp] theorem State.ensureMds_result (s : State) : s.ensureMds.result = s.result := by
  unfold State.ensureMds; split <;> rfl

@[simp] theorem State.ensureMds_keylen (s : State) : s.ensureMds.keylen = s.keylen := by
  unfold State.ensureMds; split <;> rfl

@[simp] theorem State.ensureMds_msglen (s : State) : s.ensureMds.msglen = s.msglen := by
  unfold State.ensureMds; split <;> rfl

@[simp] theorem State.ensureMds_outlen (s : State) : s.ensureMds.outlen = s.outlen := by
  unfold State.ensureMds; split <;> rfl

@[simp] theorem State.ensureMds_hl (s : State) : s.ensureMds.hl = s.hl := by
  unfold State.ensureMds; split <;> rfl

@[simp] theorem State.ensureMds_key (s : State) : s.ensureMds.key = s.key := by
  unfold State.ensureMds; split <;> rfl

@[simp] theorem State.ensureMds_iv (s : State) : s.ensureMds.iv = s.iv := by
  unfold State.ensureMds; split <;> rfl

@[simp] theorem State.ensureMds_chain (s : State) : s.ensureMds.chain = s.chain := by
  unfold State.ensureMds; split <;> rfl

@[simp] theorem State.ensureMds_din (s : State) : s.ensureMds.din = s.din := by
  unfold State.ensureMds; split <;> rfl

@[simp] theorem State.ensureMds_dout (s : State) : s.ensureMds.dout = s.dout := by
  unfold State.ensureMds; split <;> rfl

@[simp] theorem State.ensureMds_ctx (s : State) : s.ensureMds.ctx = s.ctx := by
  unfold State.ensureMds; split <;> rfl

@[simp] theorem State.ensureMds_mdsValid (s : State) : s.ensureMds.mdsValid = true := by
  unfold State.ensureMds; split <;> simp_all

@[simp] theorem State.ensureMds_mds (s : State) : s.ensureMds.mds = if s.mdsValid then s.mds else mdsTables := by
  unfold State.ensureMds; split <;> simp_all

@[simp] theorem State.ensureMds_mem (s : State) : s.ensureMds.mem = s.mem := by
  unfold State.ensureMds; split <;> rfl

@[simp] theorem State.ensureMds_host (s : State) : s.ensureMds.host = s.host := by
  unfold State.ensureMds; split <;> rfl

@[simp] theorem State.ensureMds_reads (s : State) : s.ensureMds.reads = s.reads := by
  unfold State.ensureMds; split <;> rfl

@[simp] theorem State.ensureMds_countdown (s : State) : s.ensureMds.countdown = s.countdown := by
  unfold State.ensureMds; split <;> rfl

@[simp] theorem State.ensureMds_draws (s : State) : s.ensureMds.draws = s.draws := by
  unfold State.ensureMds; split <;> rfl

@[simp] theorem State.ensureMds_resets (s : State) : s.ensureMds.resets = s.resets := by
  unfold State.ensureMds; split <;> rfl

/-! ### issue -/

@[simp] theorem State.issue_params (s : State) (v : Word) : (s.issue v).params = s.params := rfl

@[simp] theorem State.issue_irqen (s : State) (v : Word) : (s.issue v).irqen = s.irqen := rfl

@[simp] theorem State.issue_busy (s : State) (v : Word) : (s.issue v).busy = true := rfl

@[simp] theorem State.issue_done (s : State) (v : Word) : (s.issue v).done = false := rfl

@[simp] theorem State.issue_err (s : State) (v : Word) : (s.issue v).err = false := rfl

@[simp] theorem State.issue_overrun (s : State) (v : Word) : (s.issue v).overrun = s.overrun := rfl

@[simp] theorem State.issue_errcode (s : State) (v : Word) : (s.issue v).errcode = .none := rfl

@[simp] theorem State.issue_lastcmd (s : State) (v : Word) : (s.issue v).lastcmd = v := rfl

@[simp] theorem State.issue_pending (s : State) (v : Word) : (s.issue v).pending = v := rfl

@[simp] theorem State.issue_taint (s : State) (v : Word) : (s.issue v).taint = false := rfl

@[simp] theorem State.issue_opa (s : State) (v : Word) : (s.issue v).opa = s.opa := rfl

@[simp] theorem State.issue_opb (s : State) (v : Word) : (s.issue v).opb = s.opb := rfl

@[simp] theorem State.issue_result (s : State) (v : Word) : (s.issue v).result = s.result := rfl

@[simp] theorem State.issue_keylen (s : State) (v : Word) : (s.issue v).keylen = s.keylen := rfl

@[simp] theorem State.issue_msglen (s : State) (v : Word) : (s.issue v).msglen = s.msglen := rfl

@[simp] theorem State.issue_outlen (s : State) (v : Word) : (s.issue v).outlen = s.outlen := rfl

@[simp] theorem State.issue_hl (s : State) (v : Word) : (s.issue v).hl = s.hl := rfl

@[simp] theorem State.issue_key (s : State) (v : Word) : (s.issue v).key = s.key := rfl

@[simp] theorem State.issue_iv (s : State) (v : Word) : (s.issue v).iv = s.iv := rfl

@[simp] theorem State.issue_chain (s : State) (v : Word) : (s.issue v).chain = s.chain := rfl

@[simp] theorem State.issue_din (s : State) (v : Word) : (s.issue v).din = s.din := rfl

@[simp] theorem State.issue_dout (s : State) (v : Word) : (s.issue v).dout = s.dout := rfl

@[simp] theorem State.issue_ctx (s : State) (v : Word) : (s.issue v).ctx = s.ctx := rfl

@[simp] theorem State.issue_mdsValid (s : State) (v : Word) : (s.issue v).mdsValid = s.mdsValid := rfl

@[simp] theorem State.issue_mds (s : State) (v : Word) : (s.issue v).mds = s.mds := rfl

@[simp] theorem State.issue_mem (s : State) (v : Word) : (s.issue v).mem = s.mem := rfl

@[simp] theorem State.issue_host (s : State) (v : Word) : (s.issue v).host = s.host := rfl

@[simp] theorem State.issue_reads (s : State) (v : Word) : (s.issue v).reads = s.reads := rfl

@[simp] theorem State.issue_countdown (s : State) (v : Word) : (s.issue v).countdown = Config.latency s.draws := rfl

@[simp] theorem State.issue_draws (s : State) (v : Word) : (s.issue v).draws = s.draws + 1 := rfl

@[simp] theorem State.issue_resets (s : State) (v : Word) : (s.issue v).resets = s.resets := rfl

/-! ### clearStatus -/

@[simp] theorem State.clearStatus_params (s : State) : s.clearStatus.params = s.params := rfl

@[simp] theorem State.clearStatus_irqen (s : State) : s.clearStatus.irqen = s.irqen := rfl

@[simp] theorem State.clearStatus_busy (s : State) : s.clearStatus.busy = s.busy := rfl

@[simp] theorem State.clearStatus_done (s : State) : s.clearStatus.done = false := rfl

@[simp] theorem State.clearStatus_err (s : State) : s.clearStatus.err = false := rfl

@[simp] theorem State.clearStatus_overrun (s : State) : s.clearStatus.overrun = false := rfl

@[simp] theorem State.clearStatus_errcode (s : State) : s.clearStatus.errcode = .none := rfl

@[simp] theorem State.clearStatus_lastcmd (s : State) : s.clearStatus.lastcmd = s.lastcmd := rfl

@[simp] theorem State.clearStatus_pending (s : State) : s.clearStatus.pending = s.pending := rfl

@[simp] theorem State.clearStatus_taint (s : State) : s.clearStatus.taint = s.taint := rfl

@[simp] theorem State.clearStatus_opa (s : State) : s.clearStatus.opa = s.opa := rfl

@[simp] theorem State.clearStatus_opb (s : State) : s.clearStatus.opb = s.opb := rfl

@[simp] theorem State.clearStatus_result (s : State) : s.clearStatus.result = s.result := rfl

@[simp] theorem State.clearStatus_keylen (s : State) : s.clearStatus.keylen = s.keylen := rfl

@[simp] theorem State.clearStatus_msglen (s : State) : s.clearStatus.msglen = s.msglen := rfl

@[simp] theorem State.clearStatus_outlen (s : State) : s.clearStatus.outlen = s.outlen := rfl

@[simp] theorem State.clearStatus_hl (s : State) : s.clearStatus.hl = s.hl := rfl

@[simp] theorem State.clearStatus_key (s : State) : s.clearStatus.key = s.key := rfl

@[simp] theorem State.clearStatus_iv (s : State) : s.clearStatus.iv = s.iv := rfl

@[simp] theorem State.clearStatus_chain (s : State) : s.clearStatus.chain = s.chain := rfl

@[simp] theorem State.clearStatus_din (s : State) : s.clearStatus.din = s.din := rfl

@[simp] theorem State.clearStatus_dout (s : State) : s.clearStatus.dout = s.dout := rfl

@[simp] theorem State.clearStatus_ctx (s : State) : s.clearStatus.ctx = s.ctx := rfl

@[simp] theorem State.clearStatus_mdsValid (s : State) : s.clearStatus.mdsValid = s.mdsValid := rfl

@[simp] theorem State.clearStatus_mds (s : State) : s.clearStatus.mds = s.mds := rfl

@[simp] theorem State.clearStatus_mem (s : State) : s.clearStatus.mem = s.mem := rfl

@[simp] theorem State.clearStatus_host (s : State) : s.clearStatus.host = s.host := rfl

@[simp] theorem State.clearStatus_reads (s : State) : s.clearStatus.reads = s.reads := rfl

@[simp] theorem State.clearStatus_countdown (s : State) : s.clearStatus.countdown = s.countdown := rfl

@[simp] theorem State.clearStatus_draws (s : State) : s.clearStatus.draws = s.draws := rfl

@[simp] theorem State.clearStatus_resets (s : State) : s.clearStatus.resets = s.resets := rfl

/-! ### havocResult -/

@[simp] theorem State.havocResult_params (s : State) : s.havocResult.params = s.params := rfl

@[simp] theorem State.havocResult_irqen (s : State) : s.havocResult.irqen = s.irqen := rfl

@[simp] theorem State.havocResult_busy (s : State) : s.havocResult.busy = s.busy := rfl

@[simp] theorem State.havocResult_done (s : State) : s.havocResult.done = s.done := rfl

@[simp] theorem State.havocResult_err (s : State) : s.havocResult.err = s.err := rfl

@[simp] theorem State.havocResult_overrun (s : State) : s.havocResult.overrun = s.overrun := rfl

@[simp] theorem State.havocResult_errcode (s : State) : s.havocResult.errcode = s.errcode := rfl

@[simp] theorem State.havocResult_lastcmd (s : State) : s.havocResult.lastcmd = s.lastcmd := rfl

@[simp] theorem State.havocResult_pending (s : State) : s.havocResult.pending = s.pending := rfl

@[simp] theorem State.havocResult_taint (s : State) : s.havocResult.taint = s.taint := rfl

@[simp] theorem State.havocResult_opa (s : State) : s.havocResult.opa = s.opa := rfl

@[simp] theorem State.havocResult_opb (s : State) : s.havocResult.opb = s.opb := rfl

@[simp] theorem State.havocResult_result (s : State) : s.havocResult.result = s.freeAt .result := rfl

@[simp] theorem State.havocResult_keylen (s : State) : s.havocResult.keylen = s.keylen := rfl

@[simp] theorem State.havocResult_msglen (s : State) : s.havocResult.msglen = s.msglen := rfl

@[simp] theorem State.havocResult_outlen (s : State) : s.havocResult.outlen = s.outlen := rfl

@[simp] theorem State.havocResult_hl (s : State) : s.havocResult.hl = s.hl := rfl

@[simp] theorem State.havocResult_key (s : State) : s.havocResult.key = s.key := rfl

@[simp] theorem State.havocResult_iv (s : State) : s.havocResult.iv = s.iv := rfl

@[simp] theorem State.havocResult_chain (s : State) : s.havocResult.chain = s.chain := rfl

@[simp] theorem State.havocResult_din (s : State) : s.havocResult.din = s.din := rfl

@[simp] theorem State.havocResult_dout (s : State) : s.havocResult.dout = s.dout := rfl

@[simp] theorem State.havocResult_ctx (s : State) : s.havocResult.ctx = s.ctx := rfl

@[simp] theorem State.havocResult_mdsValid (s : State) : s.havocResult.mdsValid = s.mdsValid := rfl

@[simp] theorem State.havocResult_mds (s : State) : s.havocResult.mds = s.mds := rfl

@[simp] theorem State.havocResult_mem (s : State) : s.havocResult.mem = s.mem := rfl

@[simp] theorem State.havocResult_host (s : State) : s.havocResult.host = s.host := rfl

@[simp] theorem State.havocResult_reads (s : State) : s.havocResult.reads = s.reads := rfl

@[simp] theorem State.havocResult_countdown (s : State) : s.havocResult.countdown = s.countdown := rfl

@[simp] theorem State.havocResult_draws (s : State) : s.havocResult.draws = s.draws := rfl

@[simp] theorem State.havocResult_resets (s : State) : s.havocResult.resets = s.resets := rfl

/-! ### havocDout -/

@[simp] theorem State.havocDout_params (s : State) : s.havocDout.params = s.params := rfl

@[simp] theorem State.havocDout_irqen (s : State) : s.havocDout.irqen = s.irqen := rfl

@[simp] theorem State.havocDout_busy (s : State) : s.havocDout.busy = s.busy := rfl

@[simp] theorem State.havocDout_done (s : State) : s.havocDout.done = s.done := rfl

@[simp] theorem State.havocDout_err (s : State) : s.havocDout.err = s.err := rfl

@[simp] theorem State.havocDout_overrun (s : State) : s.havocDout.overrun = s.overrun := rfl

@[simp] theorem State.havocDout_errcode (s : State) : s.havocDout.errcode = s.errcode := rfl

@[simp] theorem State.havocDout_lastcmd (s : State) : s.havocDout.lastcmd = s.lastcmd := rfl

@[simp] theorem State.havocDout_pending (s : State) : s.havocDout.pending = s.pending := rfl

@[simp] theorem State.havocDout_taint (s : State) : s.havocDout.taint = s.taint := rfl

@[simp] theorem State.havocDout_opa (s : State) : s.havocDout.opa = s.opa := rfl

@[simp] theorem State.havocDout_opb (s : State) : s.havocDout.opb = s.opb := rfl

@[simp] theorem State.havocDout_result (s : State) : s.havocDout.result = s.result := rfl

@[simp] theorem State.havocDout_keylen (s : State) : s.havocDout.keylen = s.keylen := rfl

@[simp] theorem State.havocDout_msglen (s : State) : s.havocDout.msglen = s.msglen := rfl

@[simp] theorem State.havocDout_outlen (s : State) : s.havocDout.outlen = s.outlen := rfl

@[simp] theorem State.havocDout_hl (s : State) : s.havocDout.hl = s.hl := rfl

@[simp] theorem State.havocDout_key (s : State) : s.havocDout.key = s.key := rfl

@[simp] theorem State.havocDout_iv (s : State) : s.havocDout.iv = s.iv := rfl

@[simp] theorem State.havocDout_chain (s : State) : s.havocDout.chain = s.chain := rfl

@[simp] theorem State.havocDout_din (s : State) : s.havocDout.din = s.din := rfl

@[simp] theorem State.havocDout_dout (s : State) : s.havocDout.dout = s.freeQuad .dout := rfl

@[simp] theorem State.havocDout_ctx (s : State) : s.havocDout.ctx = s.ctx := rfl

@[simp] theorem State.havocDout_mdsValid (s : State) : s.havocDout.mdsValid = s.mdsValid := rfl

@[simp] theorem State.havocDout_mds (s : State) : s.havocDout.mds = s.mds := rfl

@[simp] theorem State.havocDout_mem (s : State) : s.havocDout.mem = s.mem := rfl

@[simp] theorem State.havocDout_host (s : State) : s.havocDout.host = s.host := rfl

@[simp] theorem State.havocDout_reads (s : State) : s.havocDout.reads = s.reads := rfl

@[simp] theorem State.havocDout_countdown (s : State) : s.havocDout.countdown = s.countdown := rfl

@[simp] theorem State.havocDout_draws (s : State) : s.havocDout.draws = s.draws := rfl

@[simp] theorem State.havocDout_resets (s : State) : s.havocDout.resets = s.resets := rfl

/-! ### havocChain -/

@[simp] theorem State.havocChain_params (s : State) : s.havocChain.params = s.params := rfl

@[simp] theorem State.havocChain_irqen (s : State) : s.havocChain.irqen = s.irqen := rfl

@[simp] theorem State.havocChain_busy (s : State) : s.havocChain.busy = s.busy := rfl

@[simp] theorem State.havocChain_done (s : State) : s.havocChain.done = s.done := rfl

@[simp] theorem State.havocChain_err (s : State) : s.havocChain.err = s.err := rfl

@[simp] theorem State.havocChain_overrun (s : State) : s.havocChain.overrun = s.overrun := rfl

@[simp] theorem State.havocChain_errcode (s : State) : s.havocChain.errcode = s.errcode := rfl

@[simp] theorem State.havocChain_lastcmd (s : State) : s.havocChain.lastcmd = s.lastcmd := rfl

@[simp] theorem State.havocChain_pending (s : State) : s.havocChain.pending = s.pending := rfl

@[simp] theorem State.havocChain_taint (s : State) : s.havocChain.taint = s.taint := rfl

@[simp] theorem State.havocChain_opa (s : State) : s.havocChain.opa = s.opa := rfl

@[simp] theorem State.havocChain_opb (s : State) : s.havocChain.opb = s.opb := rfl

@[simp] theorem State.havocChain_result (s : State) : s.havocChain.result = s.result := rfl

@[simp] theorem State.havocChain_keylen (s : State) : s.havocChain.keylen = s.keylen := rfl

@[simp] theorem State.havocChain_msglen (s : State) : s.havocChain.msglen = s.msglen := rfl

@[simp] theorem State.havocChain_outlen (s : State) : s.havocChain.outlen = s.outlen := rfl

@[simp] theorem State.havocChain_hl (s : State) : s.havocChain.hl = s.hl := rfl

@[simp] theorem State.havocChain_key (s : State) : s.havocChain.key = s.key := rfl

@[simp] theorem State.havocChain_iv (s : State) : s.havocChain.iv = s.iv := rfl

@[simp] theorem State.havocChain_chain (s : State) : s.havocChain.chain = s.freeQuad .chain := rfl

@[simp] theorem State.havocChain_din (s : State) : s.havocChain.din = s.din := rfl

@[simp] theorem State.havocChain_dout (s : State) : s.havocChain.dout = s.dout := rfl

@[simp] theorem State.havocChain_ctx (s : State) : s.havocChain.ctx = s.ctx := rfl

@[simp] theorem State.havocChain_mdsValid (s : State) : s.havocChain.mdsValid = s.mdsValid := rfl

@[simp] theorem State.havocChain_mds (s : State) : s.havocChain.mds = s.mds := rfl

@[simp] theorem State.havocChain_mem (s : State) : s.havocChain.mem = s.mem := rfl

@[simp] theorem State.havocChain_host (s : State) : s.havocChain.host = s.host := rfl

@[simp] theorem State.havocChain_reads (s : State) : s.havocChain.reads = s.reads := rfl

@[simp] theorem State.havocChain_countdown (s : State) : s.havocChain.countdown = s.countdown := rfl

@[simp] theorem State.havocChain_draws (s : State) : s.havocChain.draws = s.draws := rfl

@[simp] theorem State.havocChain_resets (s : State) : s.havocChain.resets = s.resets := rfl

/-! ### havocIv -/

@[simp] theorem State.havocIv_params (s : State) : s.havocIv.params = s.params := rfl

@[simp] theorem State.havocIv_irqen (s : State) : s.havocIv.irqen = s.irqen := rfl

@[simp] theorem State.havocIv_busy (s : State) : s.havocIv.busy = s.busy := rfl

@[simp] theorem State.havocIv_done (s : State) : s.havocIv.done = s.done := rfl

@[simp] theorem State.havocIv_err (s : State) : s.havocIv.err = s.err := rfl

@[simp] theorem State.havocIv_overrun (s : State) : s.havocIv.overrun = s.overrun := rfl

@[simp] theorem State.havocIv_errcode (s : State) : s.havocIv.errcode = s.errcode := rfl

@[simp] theorem State.havocIv_lastcmd (s : State) : s.havocIv.lastcmd = s.lastcmd := rfl

@[simp] theorem State.havocIv_pending (s : State) : s.havocIv.pending = s.pending := rfl

@[simp] theorem State.havocIv_taint (s : State) : s.havocIv.taint = s.taint := rfl

@[simp] theorem State.havocIv_opa (s : State) : s.havocIv.opa = s.opa := rfl

@[simp] theorem State.havocIv_opb (s : State) : s.havocIv.opb = s.opb := rfl

@[simp] theorem State.havocIv_result (s : State) : s.havocIv.result = s.result := rfl

@[simp] theorem State.havocIv_keylen (s : State) : s.havocIv.keylen = s.keylen := rfl

@[simp] theorem State.havocIv_msglen (s : State) : s.havocIv.msglen = s.msglen := rfl

@[simp] theorem State.havocIv_outlen (s : State) : s.havocIv.outlen = s.outlen := rfl

@[simp] theorem State.havocIv_hl (s : State) : s.havocIv.hl = s.hl := rfl

@[simp] theorem State.havocIv_key (s : State) : s.havocIv.key = s.key := rfl

@[simp] theorem State.havocIv_iv (s : State) : s.havocIv.iv = s.freeQuad .iv := rfl

@[simp] theorem State.havocIv_chain (s : State) : s.havocIv.chain = s.chain := rfl

@[simp] theorem State.havocIv_din (s : State) : s.havocIv.din = s.din := rfl

@[simp] theorem State.havocIv_dout (s : State) : s.havocIv.dout = s.dout := rfl

@[simp] theorem State.havocIv_ctx (s : State) : s.havocIv.ctx = s.ctx := rfl

@[simp] theorem State.havocIv_mdsValid (s : State) : s.havocIv.mdsValid = s.mdsValid := rfl

@[simp] theorem State.havocIv_mds (s : State) : s.havocIv.mds = s.mds := rfl

@[simp] theorem State.havocIv_mem (s : State) : s.havocIv.mem = s.mem := rfl

@[simp] theorem State.havocIv_host (s : State) : s.havocIv.host = s.host := rfl

@[simp] theorem State.havocIv_reads (s : State) : s.havocIv.reads = s.reads := rfl

@[simp] theorem State.havocIv_countdown (s : State) : s.havocIv.countdown = s.countdown := rfl

@[simp] theorem State.havocIv_draws (s : State) : s.havocIv.draws = s.draws := rfl

@[simp] theorem State.havocIv_resets (s : State) : s.havocIv.resets = s.resets := rfl

/-! ### havocKey -/

@[simp] theorem State.havocKey_params (s : State) : s.havocKey.params = s.params := rfl

@[simp] theorem State.havocKey_irqen (s : State) : s.havocKey.irqen = s.irqen := rfl

@[simp] theorem State.havocKey_busy (s : State) : s.havocKey.busy = s.busy := rfl

@[simp] theorem State.havocKey_done (s : State) : s.havocKey.done = s.done := rfl

@[simp] theorem State.havocKey_err (s : State) : s.havocKey.err = s.err := rfl

@[simp] theorem State.havocKey_overrun (s : State) : s.havocKey.overrun = s.overrun := rfl

@[simp] theorem State.havocKey_errcode (s : State) : s.havocKey.errcode = s.errcode := rfl

@[simp] theorem State.havocKey_lastcmd (s : State) : s.havocKey.lastcmd = s.lastcmd := rfl

@[simp] theorem State.havocKey_pending (s : State) : s.havocKey.pending = s.pending := rfl

@[simp] theorem State.havocKey_taint (s : State) : s.havocKey.taint = s.taint := rfl

@[simp] theorem State.havocKey_opa (s : State) : s.havocKey.opa = s.opa := rfl

@[simp] theorem State.havocKey_opb (s : State) : s.havocKey.opb = s.opb := rfl

@[simp] theorem State.havocKey_result (s : State) : s.havocKey.result = s.result := rfl

@[simp] theorem State.havocKey_keylen (s : State) : s.havocKey.keylen = s.keylen := rfl

@[simp] theorem State.havocKey_msglen (s : State) : s.havocKey.msglen = s.msglen := rfl

@[simp] theorem State.havocKey_outlen (s : State) : s.havocKey.outlen = s.outlen := rfl

@[simp] theorem State.havocKey_hl (s : State) : s.havocKey.hl = s.hl := rfl

@[simp] theorem State.havocKey_iv (s : State) : s.havocKey.iv = s.iv := rfl

@[simp] theorem State.havocKey_chain (s : State) : s.havocKey.chain = s.chain := rfl

@[simp] theorem State.havocKey_din (s : State) : s.havocKey.din = s.din := rfl

@[simp] theorem State.havocKey_dout (s : State) : s.havocKey.dout = s.dout := rfl

@[simp] theorem State.havocKey_ctx (s : State) : s.havocKey.ctx = s.ctx := rfl

@[simp] theorem State.havocKey_mdsValid (s : State) : s.havocKey.mdsValid = s.mdsValid := rfl

@[simp] theorem State.havocKey_mds (s : State) : s.havocKey.mds = s.mds := rfl

@[simp] theorem State.havocKey_mem (s : State) : s.havocKey.mem = s.mem := rfl

@[simp] theorem State.havocKey_host (s : State) : s.havocKey.host = s.host := rfl

@[simp] theorem State.havocKey_reads (s : State) : s.havocKey.reads = s.reads := rfl

@[simp] theorem State.havocKey_countdown (s : State) : s.havocKey.countdown = s.countdown := rfl

@[simp] theorem State.havocKey_draws (s : State) : s.havocKey.draws = s.draws := rfl

@[simp] theorem State.havocKey_resets (s : State) : s.havocKey.resets = s.resets := rfl

/-! ### havocCtx -/

@[simp] theorem State.havocCtx_params (s : State) : s.havocCtx.params = s.params := rfl

@[simp] theorem State.havocCtx_irqen (s : State) : s.havocCtx.irqen = s.irqen := rfl

@[simp] theorem State.havocCtx_busy (s : State) : s.havocCtx.busy = s.busy := rfl

@[simp] theorem State.havocCtx_done (s : State) : s.havocCtx.done = s.done := rfl

@[simp] theorem State.havocCtx_err (s : State) : s.havocCtx.err = s.err := rfl

@[simp] theorem State.havocCtx_overrun (s : State) : s.havocCtx.overrun = s.overrun := rfl

@[simp] theorem State.havocCtx_errcode (s : State) : s.havocCtx.errcode = s.errcode := rfl

@[simp] theorem State.havocCtx_lastcmd (s : State) : s.havocCtx.lastcmd = s.lastcmd := rfl

@[simp] theorem State.havocCtx_pending (s : State) : s.havocCtx.pending = s.pending := rfl

@[simp] theorem State.havocCtx_taint (s : State) : s.havocCtx.taint = s.taint := rfl

@[simp] theorem State.havocCtx_opa (s : State) : s.havocCtx.opa = s.opa := rfl

@[simp] theorem State.havocCtx_opb (s : State) : s.havocCtx.opb = s.opb := rfl

@[simp] theorem State.havocCtx_result (s : State) : s.havocCtx.result = s.result := rfl

@[simp] theorem State.havocCtx_keylen (s : State) : s.havocCtx.keylen = s.keylen := rfl

@[simp] theorem State.havocCtx_msglen (s : State) : s.havocCtx.msglen = s.msglen := rfl

@[simp] theorem State.havocCtx_outlen (s : State) : s.havocCtx.outlen = s.outlen := rfl

@[simp] theorem State.havocCtx_hl (s : State) : s.havocCtx.hl = s.hl := rfl

@[simp] theorem State.havocCtx_key (s : State) : s.havocCtx.key = s.key := rfl

@[simp] theorem State.havocCtx_iv (s : State) : s.havocCtx.iv = s.iv := rfl

@[simp] theorem State.havocCtx_chain (s : State) : s.havocCtx.chain = s.chain := rfl

@[simp] theorem State.havocCtx_din (s : State) : s.havocCtx.din = s.din := rfl

@[simp] theorem State.havocCtx_dout (s : State) : s.havocCtx.dout = s.dout := rfl

@[simp] theorem State.havocCtx_mdsValid (s : State) : s.havocCtx.mdsValid = s.mdsValid := rfl

@[simp] theorem State.havocCtx_mds (s : State) : s.havocCtx.mds = s.mds := rfl

@[simp] theorem State.havocCtx_mem (s : State) : s.havocCtx.mem = s.mem := rfl

@[simp] theorem State.havocCtx_host (s : State) : s.havocCtx.host = s.host := rfl

@[simp] theorem State.havocCtx_reads (s : State) : s.havocCtx.reads = s.reads := rfl

@[simp] theorem State.havocCtx_countdown (s : State) : s.havocCtx.countdown = s.countdown := rfl

@[simp] theorem State.havocCtx_draws (s : State) : s.havocCtx.draws = s.draws := rfl

@[simp] theorem State.havocCtx_resets (s : State) : s.havocCtx.resets = s.resets := rfl

/-! ### havocOut -/

@[simp] theorem State.havocOut_params (s : State) : s.havocOut.params = s.params := rfl

@[simp] theorem State.havocOut_irqen (s : State) : s.havocOut.irqen = s.irqen := rfl

@[simp] theorem State.havocOut_busy (s : State) : s.havocOut.busy = s.busy := rfl

@[simp] theorem State.havocOut_done (s : State) : s.havocOut.done = s.done := rfl

@[simp] theorem State.havocOut_err (s : State) : s.havocOut.err = s.err := rfl

@[simp] theorem State.havocOut_overrun (s : State) : s.havocOut.overrun = s.overrun := rfl

@[simp] theorem State.havocOut_errcode (s : State) : s.havocOut.errcode = s.errcode := rfl

@[simp] theorem State.havocOut_lastcmd (s : State) : s.havocOut.lastcmd = s.lastcmd := rfl

@[simp] theorem State.havocOut_pending (s : State) : s.havocOut.pending = s.pending := rfl

@[simp] theorem State.havocOut_taint (s : State) : s.havocOut.taint = s.taint := rfl

@[simp] theorem State.havocOut_opa (s : State) : s.havocOut.opa = s.opa := rfl

@[simp] theorem State.havocOut_opb (s : State) : s.havocOut.opb = s.opb := rfl

@[simp] theorem State.havocOut_result (s : State) : s.havocOut.result = s.result := rfl

@[simp] theorem State.havocOut_keylen (s : State) : s.havocOut.keylen = s.keylen := rfl

@[simp] theorem State.havocOut_msglen (s : State) : s.havocOut.msglen = s.msglen := rfl

@[simp] theorem State.havocOut_outlen (s : State) : s.havocOut.outlen = s.freeAt .outlen := rfl

@[simp] theorem State.havocOut_hl (s : State) : s.havocOut.hl = s.hl := rfl

@[simp] theorem State.havocOut_key (s : State) : s.havocOut.key = s.key := rfl

@[simp] theorem State.havocOut_iv (s : State) : s.havocOut.iv = s.iv := rfl

@[simp] theorem State.havocOut_chain (s : State) : s.havocOut.chain = s.chain := rfl

@[simp] theorem State.havocOut_din (s : State) : s.havocOut.din = s.din := rfl

@[simp] theorem State.havocOut_dout (s : State) : s.havocOut.dout = s.dout := rfl

@[simp] theorem State.havocOut_ctx (s : State) : s.havocOut.ctx = s.ctx := rfl

@[simp] theorem State.havocOut_mdsValid (s : State) : s.havocOut.mdsValid = s.mdsValid := rfl

@[simp] theorem State.havocOut_mds (s : State) : s.havocOut.mds = s.mds := rfl

@[simp] theorem State.havocOut_host (s : State) : s.havocOut.host = s.host := rfl

@[simp] theorem State.havocOut_reads (s : State) : s.havocOut.reads = s.reads := rfl

@[simp] theorem State.havocOut_countdown (s : State) : s.havocOut.countdown = s.countdown := rfl

@[simp] theorem State.havocOut_draws (s : State) : s.havocOut.draws = s.draws := rfl

@[simp] theorem State.havocOut_resets (s : State) : s.havocOut.resets = s.resets := rfl

/-! ### placeCommand -/

@[simp] theorem State.placeCommand_params (s : State) (v : Word) : (s.placeCommand v).params = s.params := rfl

@[simp] theorem State.placeCommand_irqen (s : State) (v : Word) : (s.placeCommand v).irqen = s.irqen := rfl

@[simp] theorem State.placeCommand_busy (s : State) (v : Word) : (s.placeCommand v).busy = true := rfl

@[simp] theorem State.placeCommand_done (s : State) (v : Word) : (s.placeCommand v).done = false := rfl

@[simp] theorem State.placeCommand_err (s : State) (v : Word) : (s.placeCommand v).err = false := rfl

@[simp] theorem State.placeCommand_overrun (s : State) (v : Word) : (s.placeCommand v).overrun = s.overrun := rfl

@[simp] theorem State.placeCommand_errcode (s : State) (v : Word) : (s.placeCommand v).errcode = .none := rfl

@[simp] theorem State.placeCommand_lastcmd (s : State) (v : Word) : (s.placeCommand v).lastcmd = v := rfl

@[simp] theorem State.placeCommand_pending (s : State) (v : Word) : (s.placeCommand v).pending = v := rfl

@[simp] theorem State.placeCommand_taint (s : State) (v : Word) : (s.placeCommand v).taint = false := rfl

@[simp] theorem State.placeCommand_opa (s : State) (v : Word) : (s.placeCommand v).opa = s.opa := rfl

@[simp] theorem State.placeCommand_opb (s : State) (v : Word) : (s.placeCommand v).opb = s.opb := rfl

@[simp] theorem State.placeCommand_result (s : State) (v : Word) : (s.placeCommand v).result = s.result := rfl

@[simp] theorem State.placeCommand_keylen (s : State) (v : Word) : (s.placeCommand v).keylen = s.keylen := rfl

@[simp] theorem State.placeCommand_msglen (s : State) (v : Word) : (s.placeCommand v).msglen = s.msglen := rfl

@[simp] theorem State.placeCommand_outlen (s : State) (v : Word) : (s.placeCommand v).outlen = s.outlen := rfl

@[simp] theorem State.placeCommand_hl (s : State) (v : Word) : (s.placeCommand v).hl = s.hl := rfl

@[simp] theorem State.placeCommand_key (s : State) (v : Word) : (s.placeCommand v).key = s.key := rfl

@[simp] theorem State.placeCommand_iv (s : State) (v : Word) : (s.placeCommand v).iv = s.iv := rfl

@[simp] theorem State.placeCommand_chain (s : State) (v : Word) : (s.placeCommand v).chain = s.chain := rfl

@[simp] theorem State.placeCommand_din (s : State) (v : Word) : (s.placeCommand v).din = s.din := rfl

@[simp] theorem State.placeCommand_dout (s : State) (v : Word) : (s.placeCommand v).dout = s.dout := rfl

@[simp] theorem State.placeCommand_ctx (s : State) (v : Word) : (s.placeCommand v).ctx = s.ctx := rfl

@[simp] theorem State.placeCommand_mdsValid (s : State) (v : Word) : (s.placeCommand v).mdsValid = s.mdsValid := rfl

@[simp] theorem State.placeCommand_mds (s : State) (v : Word) : (s.placeCommand v).mds = s.mds := rfl

@[simp] theorem State.placeCommand_mem (s : State) (v : Word) : (s.placeCommand v).mem = s.mem := rfl

@[simp] theorem State.placeCommand_host (s : State) (v : Word) : (s.placeCommand v).host = s.host := rfl

@[simp] theorem State.placeCommand_reads (s : State) (v : Word) : (s.placeCommand v).reads = s.reads := rfl

@[simp] theorem State.placeCommand_countdown (s : State) (v : Word) : (s.placeCommand v).countdown = 0 := rfl

@[simp] theorem State.placeCommand_draws (s : State) (v : Word) : (s.placeCommand v).draws = s.draws := rfl

@[simp] theorem State.placeCommand_resets (s : State) (v : Word) : (s.placeCommand v).resets = s.resets := rfl

/-! ### markTaint -/

@[simp] theorem State.markTaint_params (s : State) : s.markTaint.params = s.params := by
  unfold State.markTaint; split <;> rfl

@[simp] theorem State.markTaint_irqen (s : State) : s.markTaint.irqen = s.irqen := by
  unfold State.markTaint; split <;> rfl

@[simp] theorem State.markTaint_busy (s : State) : s.markTaint.busy = s.busy := by
  unfold State.markTaint; split <;> rfl

@[simp] theorem State.markTaint_done (s : State) : s.markTaint.done = s.done := by
  unfold State.markTaint; split <;> rfl

@[simp] theorem State.markTaint_err (s : State) : s.markTaint.err = s.err := by
  unfold State.markTaint; split <;> rfl

@[simp] theorem State.markTaint_overrun (s : State) : s.markTaint.overrun = s.overrun := by
  unfold State.markTaint; split <;> rfl

@[simp] theorem State.markTaint_errcode (s : State) : s.markTaint.errcode = s.errcode := by
  unfold State.markTaint; split <;> rfl

@[simp] theorem State.markTaint_lastcmd (s : State) : s.markTaint.lastcmd = s.lastcmd := by
  unfold State.markTaint; split <;> rfl

@[simp] theorem State.markTaint_pending (s : State) : s.markTaint.pending = s.pending := by
  unfold State.markTaint; split <;> rfl

@[simp] theorem State.markTaint_taint (s : State) : s.markTaint.taint = s.busy || s.taint := by
  unfold State.markTaint; split <;> simp_all

@[simp] theorem State.markTaint_opa (s : State) : s.markTaint.opa = s.opa := by
  unfold State.markTaint; split <;> rfl

@[simp] theorem State.markTaint_opb (s : State) : s.markTaint.opb = s.opb := by
  unfold State.markTaint; split <;> rfl

@[simp] theorem State.markTaint_result (s : State) : s.markTaint.result = s.result := by
  unfold State.markTaint; split <;> rfl

@[simp] theorem State.markTaint_keylen (s : State) : s.markTaint.keylen = s.keylen := by
  unfold State.markTaint; split <;> rfl

@[simp] theorem State.markTaint_msglen (s : State) : s.markTaint.msglen = s.msglen := by
  unfold State.markTaint; split <;> rfl

@[simp] theorem State.markTaint_outlen (s : State) : s.markTaint.outlen = s.outlen := by
  unfold State.markTaint; split <;> rfl

@[simp] theorem State.markTaint_hl (s : State) : s.markTaint.hl = s.hl := by
  unfold State.markTaint; split <;> rfl

@[simp] theorem State.markTaint_key (s : State) : s.markTaint.key = s.key := by
  unfold State.markTaint; split <;> rfl

@[simp] theorem State.markTaint_iv (s : State) : s.markTaint.iv = s.iv := by
  unfold State.markTaint; split <;> rfl

@[simp] theorem State.markTaint_chain (s : State) : s.markTaint.chain = s.chain := by
  unfold State.markTaint; split <;> rfl

@[simp] theorem State.markTaint_din (s : State) : s.markTaint.din = s.din := by
  unfold State.markTaint; split <;> rfl

@[simp] theorem State.markTaint_dout (s : State) : s.markTaint.dout = s.dout := by
  unfold State.markTaint; split <;> rfl

@[simp] theorem State.markTaint_ctx (s : State) : s.markTaint.ctx = s.ctx := by
  unfold State.markTaint; split <;> rfl

@[simp] theorem State.markTaint_mdsValid (s : State) : s.markTaint.mdsValid = s.mdsValid := by
  unfold State.markTaint; split <;> rfl

@[simp] theorem State.markTaint_mds (s : State) : s.markTaint.mds = s.mds := by
  unfold State.markTaint; split <;> rfl

@[simp] theorem State.markTaint_mem (s : State) : s.markTaint.mem = s.mem := by
  unfold State.markTaint; split <;> rfl

@[simp] theorem State.markTaint_host (s : State) : s.markTaint.host = s.host := by
  unfold State.markTaint; split <;> rfl

@[simp] theorem State.markTaint_reads (s : State) : s.markTaint.reads = s.reads := by
  unfold State.markTaint; split <;> rfl

@[simp] theorem State.markTaint_countdown (s : State) : s.markTaint.countdown = s.countdown := by
  unfold State.markTaint; split <;> rfl

@[simp] theorem State.markTaint_draws (s : State) : s.markTaint.draws = s.draws := by
  unfold State.markTaint; split <;> rfl

@[simp] theorem State.markTaint_resets (s : State) : s.markTaint.resets = s.resets := by
  unfold State.markTaint; split <;> rfl

/-! ### passTurn -/

@[simp] theorem State.passTurn_params (s : State) (rest : List HostOp) : (s.passTurn rest).params = s.params := rfl

@[simp] theorem State.passTurn_irqen (s : State) (rest : List HostOp) : (s.passTurn rest).irqen = s.irqen := rfl

@[simp] theorem State.passTurn_busy (s : State) (rest : List HostOp) : (s.passTurn rest).busy = s.busy := rfl

@[simp] theorem State.passTurn_done (s : State) (rest : List HostOp) : (s.passTurn rest).done = s.done := rfl

@[simp] theorem State.passTurn_err (s : State) (rest : List HostOp) : (s.passTurn rest).err = s.err := rfl

@[simp] theorem State.passTurn_overrun (s : State) (rest : List HostOp) : (s.passTurn rest).overrun = s.overrun := rfl

@[simp] theorem State.passTurn_errcode (s : State) (rest : List HostOp) : (s.passTurn rest).errcode = s.errcode := rfl

@[simp] theorem State.passTurn_lastcmd (s : State) (rest : List HostOp) : (s.passTurn rest).lastcmd = s.lastcmd := rfl

@[simp] theorem State.passTurn_pending (s : State) (rest : List HostOp) : (s.passTurn rest).pending = s.pending := rfl

@[simp] theorem State.passTurn_taint (s : State) (rest : List HostOp) : (s.passTurn rest).taint = s.taint := rfl

@[simp] theorem State.passTurn_opa (s : State) (rest : List HostOp) : (s.passTurn rest).opa = s.opa := rfl

@[simp] theorem State.passTurn_opb (s : State) (rest : List HostOp) : (s.passTurn rest).opb = s.opb := rfl

@[simp] theorem State.passTurn_result (s : State) (rest : List HostOp) : (s.passTurn rest).result = s.result := rfl

@[simp] theorem State.passTurn_keylen (s : State) (rest : List HostOp) : (s.passTurn rest).keylen = s.keylen := rfl

@[simp] theorem State.passTurn_msglen (s : State) (rest : List HostOp) : (s.passTurn rest).msglen = s.msglen := rfl

@[simp] theorem State.passTurn_outlen (s : State) (rest : List HostOp) : (s.passTurn rest).outlen = s.outlen := rfl

@[simp] theorem State.passTurn_hl (s : State) (rest : List HostOp) : (s.passTurn rest).hl = s.hl := rfl

@[simp] theorem State.passTurn_key (s : State) (rest : List HostOp) : (s.passTurn rest).key = s.key := rfl

@[simp] theorem State.passTurn_iv (s : State) (rest : List HostOp) : (s.passTurn rest).iv = s.iv := rfl

@[simp] theorem State.passTurn_chain (s : State) (rest : List HostOp) : (s.passTurn rest).chain = s.chain := rfl

@[simp] theorem State.passTurn_din (s : State) (rest : List HostOp) : (s.passTurn rest).din = s.din := rfl

@[simp] theorem State.passTurn_dout (s : State) (rest : List HostOp) : (s.passTurn rest).dout = s.dout := rfl

@[simp] theorem State.passTurn_ctx (s : State) (rest : List HostOp) : (s.passTurn rest).ctx = s.ctx := rfl

@[simp] theorem State.passTurn_mdsValid (s : State) (rest : List HostOp) : (s.passTurn rest).mdsValid = s.mdsValid := rfl

@[simp] theorem State.passTurn_mds (s : State) (rest : List HostOp) : (s.passTurn rest).mds = s.mds := rfl

@[simp] theorem State.passTurn_mem (s : State) (rest : List HostOp) : (s.passTurn rest).mem = s.mem := rfl

@[simp] theorem State.passTurn_host (s : State) (rest : List HostOp) : (s.passTurn rest).host = rest := rfl

@[simp] theorem State.passTurn_reads (s : State) (rest : List HostOp) : (s.passTurn rest).reads = s.reads := rfl

@[simp] theorem State.passTurn_countdown (s : State) (rest : List HostOp) : (s.passTurn rest).countdown = s.countdown - 1 := rfl

@[simp] theorem State.passTurn_draws (s : State) (rest : List HostOp) : (s.passTurn rest).draws = s.draws := rfl

@[simp] theorem State.passTurn_resets (s : State) (rest : List HostOp) : (s.passTurn rest).resets = s.resets := rfl

end Sys2Proof.Machine
end

