-- ==== Sys2Proof/Laws/Message.lean ====
section
/-! SUPPORT. The laws of the message functions: the lengths of their outputs, what `unpadBytes` can fail with, and what the end of
a message command leaves in the buffers. -/

namespace Sys2Proof.Machine

/-- unpad fails with PADDING and nothing else. -/
theorem unpadBytes_error (m : List Byte) (c : ErrCode) (h : unpadBytes m = .error c) : c = .padding := by
  unfold unpadBytes at h
  simp only at h
  split at h
  · cases h; rfl
  split at h
  · cases h; rfl
  split at h
  · cases h; rfl
  split at h
  · cases h; rfl
  cases h

/-- unpad never lengthens. -/
theorem unpadBytes_length_le (m out : List Byte) (h : unpadBytes m = .ok out) : out.length ≤ m.length := by
  unfold unpadBytes at h
  simp only at h
  split at h
  · cases h
  split at h
  · cases h
  split at h
  · cases h
  split at h
  · cases h
  injection h with h
  subst h
  simp

@[simp] theorem cbcDecrypt_length (dec : Quad → Quad) (prev : Quad) (cs : List Quad) :
    (cbcDecrypt dec prev cs).length = cs.length := by
  induction cs generalizing prev with
  | nil => rfl
  | cons c cs ih => simp [cbcDecrypt, ih]

/-- The padded message is whole blocks. -/
theorem blocksBytes_blocksOf_padBytes (m : List Byte) : blocksBytes (blocksOf (padBytes m)) = padBytes m :=
  blocksBytes_blocksOf _ (by simp)

/-- The length of MSGENC's output: the IV and the padded message (43_chaining.md R270). -/
@[simp] theorem sealMessage_length (c : KeyCtx) (iv : Quad) (m : List Byte) :
    (sealMessage c iv m).length = 16 * (m.length / 16) + 32 := by
  have h := congrArg List.length (blocksBytes_blocksOf_padBytes m)
  simp only [blocksBytes_length, padBytes_length] at h
  simp only [sealMessage, List.length_append, quadBytes_length, blocksBytes_length, cbcEncrypt_length]
  omega

/-- A buffer byte after a message command's completion: the output from the start of OUTBUF, else as before. -/
theorem byteAt_putOutput_finish (s : State) (out : List Byte) (c : ErrCode) (a : Nat) :
    ((putOutput s out).finish c).byteAt a =
      if outbufBase ≤ a ∧ a < outbufBase + out.length then out.getD (a - outbufBase) 0 else s.byteAt a :=
  byteAt_storeBytes s outbufBase out a

end Sys2Proof.Machine
end

