-- ==== Sys2Proof/Laws/Ops.lean ====
section
/-! SUPPORT. What each shared operation can do, said once: completion, the key and length checks, ensureMDS, the bus, and one
step. The provers cite these instead of unfolding. -/

namespace Sys2Proof.Machine

/-! ### Completion -/

/-- A tainted completion does not look at the outcome. -/
theorem complete_tainted (s : State) (body : Except ErrCode State) (havoc : State) (h : s.taint = true) :
    s.complete body havoc = s.finishTainted havoc := by simp [State.complete, h]

/-- An untainted completion that fails. -/
theorem complete_error (s : State) (c : ErrCode) (havoc : State) (h : s.taint = false) :
    s.complete (.error c) havoc = s.finish c := by simp [State.complete, h, State.fail]

/-- An untainted completion that succeeds. -/
theorem complete_ok (s t havoc : State) (h : s.taint = false) :
    s.complete (.ok t) havoc = t.finish .none := by simp [State.complete, h, State.succeed]

/-- Everything a completion can do. -/
theorem complete_cases (s : State) (body : Except ErrCode State) (havoc : State) :
    (s.taint = true ∧ s.complete body havoc = s.finishTainted havoc) ∨
    (s.taint = false ∧ ∃ c, body = .error c ∧ s.complete body havoc = s.finish c) ∨
    (s.taint = false ∧ ∃ t, body = .ok t ∧ s.complete body havoc = t.finish .none) := by
  cases h : s.taint with
  | true => exact .inl ⟨rfl, complete_tainted s body havoc h⟩
  | false =>
    cases body with
    | error c => exact .inr (.inl ⟨rfl, c, rfl, complete_error s c havoc h⟩)
    | ok t => exact .inr (.inr ⟨rfl, t, rfl, complete_ok s t havoc h⟩)

@[simp] theorem complete_busy (s : State) (body : Except ErrCode State) (havoc : State) :
    (s.complete body havoc).busy = false := by
  rcases complete_cases s body havoc with ⟨_, h⟩ | ⟨_, _, _, h⟩ | ⟨_, _, _, h⟩ <;> rw [h] <;> rfl

@[simp] theorem complete_done (s : State) (body : Except ErrCode State) (havoc : State) :
    (s.complete body havoc).done = true := by
  rcases complete_cases s body havoc with ⟨_, h⟩ | ⟨_, _, _, h⟩ | ⟨_, _, _, h⟩ <;> rw [h] <;> rfl

@[simp] theorem complete_taint (s : State) (body : Except ErrCode State) (havoc : State) :
    (s.complete body havoc).taint = false := by
  rcases complete_cases s body havoc with ⟨_, h⟩ | ⟨_, _, _, h⟩ | ⟨_, _, _, h⟩ <;> rw [h] <;> rfl

/-- ERR goes with ERRCODE after every completion. -/
theorem complete_err (s : State) (body : Except ErrCode State) (havoc : State) :
    (s.complete body havoc).err = errOf (s.complete body havoc).errcode := by
  rcases complete_cases s body havoc with ⟨_, h⟩ | ⟨_, _, _, h⟩ | ⟨_, _, _, h⟩ <;> rw [h] <;> rfl

/-- A fact about one field that the outcome and the unconstrained state both have, and that the flags leave alone, holds after
the completion. -/
theorem complete_keeps {α : Type} (f : State → α) (v : α) (s : State) (body : Except ErrCode State) (havoc : State)
    (hf : ∀ t c, f (State.finish t c) = f t) (hd : ∀ t, f (State.drawn t) = f t) (hs : f s = v) (hh : f havoc = v)
    (hb : ∀ t, body = .ok t → f t = v) : f (s.complete body havoc) = v := by
  rcases complete_cases s body havoc with ⟨_, h⟩ | ⟨_, _, _, h⟩ | ⟨_, t, ht, h⟩ <;> rw [h]
  · rw [State.finishTainted, hd, hf, hh]
  · rw [hf, hs]
  · rw [hf, hb t ht]

/-! ### Checks -/

theorem withKey_valid (s : State) (body : Except ErrCode State) (h : s.ctx.valid = true) : withKey s body = body := by
  simp [withKey, h]

theorem withKey_none (s : State) (body : Except ErrCode State) (h : s.ctx.valid = false) :
    withKey s body = .error .nokey := by simp [withKey, h]

/-- A keyed command's outcome is a success only with a key context. -/
theorem withKey_ok (s t : State) (body : Except ErrCode State) (h : withKey s body = .ok t) :
    s.ctx.valid = true ∧ body = .ok t := by
  unfold withKey at h
  split at h
  · exact ⟨‹_›, h⟩
  · cases h

theorem withLength_le (s : State) (body : Except ErrCode State) (h : s.msglen.toNat ≤ s.params.bufBytes) :
    withLength s body = body := by simp [withLength, State.msgLen, h]

theorem withLength_gt (s : State) (body : Except ErrCode State) (h : s.params.bufBytes < s.msglen.toNat) :
    withLength s body = .error .length := by
  simp [withLength, State.msgLen, Nat.not_le.mpr h]

/-- A message command's outcome is a success only with MSGLEN within BUF_BYTES. -/
theorem withLength_ok (s t : State) (body : Except ErrCode State) (h : withLength s body = .ok t) :
    s.msglen.toNat ≤ s.params.bufBytes ∧ body = .ok t := by
  unfold withLength at h
  split at h
  · exact ⟨‹_›, h⟩
  · cases h

/-! ### ensureMDS -/

/-- After ensureMDS the tables are the constant, given that they were wherever MDS_VALID was 1. -/
theorem ensureMds_exact (s : State) (h : s.mdsValid = true → s.mds = mdsTables) : s.ensureMds.mds = mdsTables := by
  simp only [State.ensureMds_mds]
  split
  · exact h ‹_›
  · rfl

/-- Every entry of the constant tables. -/
@[simp] theorem mdsTables_entry (j : Fin 4) (x : Byte) : mdsTables.entry j x = mdsEntry j x :=
  Tables.entry_build mdsEntry j x

/-! ### The bus -/

/-- A HOST access is answered exactly when it is 4 bytes wide, aligned and mapped. -/
theorem busLocate_ok (p : Params) (width : Nat) (offset : BitVec 16) (l : Loc) :
    busLocate p width offset = .ok l ↔ width = 4 ∧ offset.toNat % 4 = 0 ∧ wordLoc p (offset.toNat / 4) = some l := by
  unfold busLocate
  split
  · simp_all
  · split
    · simp_all
    · split <;> simp_all

/-- The offset of the location at a word index. -/
theorem locOffset_of_wordLoc (p : Params) (k : Nat) (l : Loc) (h : wordLoc p k = some l) : locOffset l = 4 * k := by
  unfold wordLoc at h
  split at h
  · unfold regLoc at h
    split at h <;> first | (cases h; rfl) | cases h
  · repeat' split at h
    all_goals first
      | (cases h; simp only [locOffset, inbufBase, outbufBase]; omega)
      | cases h

/-! ### One step -/

/-- Every meaning answers a next state: the completion of its outcome. -/
theorem exec_next (i : Instr) (s : State) : ∃ body havoc, exec i s = .next (s.complete body havoc) := by
  cases i <;> exact ⟨_, _, rfl⟩

/-- Everything a step can do: the CORE completes a command or an ILLEGAL word, or the HOST takes its turn. -/
theorem step_cases (s : State) :
    (s.coreTurn = true ∧ ∃ i, decode s.params s.pending = .command i ∧ step s = exec i s) ∨
    (s.coreTurn = true ∧ ∃ why, decode s.params s.pending = .illegal why ∧ step s = .next s.illegalCommand) ∨
    (s.coreTurn = false ∧ step s = hostStep s) := by
  unfold step
  cases hc : s.coreTurn with
  | false => simp
  | true =>
    cases hd : decode s.params s.pending with
    | command i => simp
    | illegal why => simp

/-- Everything the HOST's turn can do. -/
theorem hostStep_cases (s : State) :
    (s.host = [] ∧ hostStep s = .next s) ∨
    (∃ rest, s.host = .wait :: rest ∧
      hostStep s = .next ((s.passTurn (if s.busy then s.host else rest)).hostRead .status)) ∨
    (∃ width offset rest l, s.host = .read width offset :: rest ∧ busLocate s.params width offset = .ok l ∧
      hostStep s = .next ((s.passTurn rest).hostRead l)) ∨
    (∃ width offset v rest l, s.host = .write width offset v :: rest ∧ busLocate s.params width offset = .ok l ∧
      hostStep s = .next ((s.passTurn rest).hostWrite l v)) ∨
    (∃ op rest f, s.host = op :: rest ∧ op.wf s.params = false ∧ hostStep s = .fault f) := by
  unfold hostStep
  cases hh : s.host with
  | nil => simp
  | cons op rest =>
    cases op with
    | wait => right; left; exact ⟨rest, rfl, rfl⟩
    | read width offset =>
      cases hb : busLocate s.params width offset with
      | ok l => right; right; left; exact ⟨width, offset, rest, l, rfl, hb, by simp [hb]⟩
      | error f =>
        right; right; right; right
        exact ⟨_, rest, f, rfl, by simp [HostOp.wf, hb, Except.isOk, Except.toBool], by simp [hb]⟩
    | write width offset v =>
      cases hb : busLocate s.params width offset with
      | ok l => right; right; right; left; exact ⟨width, offset, v, rest, l, rfl, hb, by simp [hb]⟩
      | error f =>
        right; right; right; right
        exact ⟨_, rest, f, rfl, by simp [HostOp.wf, hb, Except.isOk, Except.toBool], by simp [hb]⟩

/-- No HOST read is free while BUSY = 0. -/
@[simp] theorem readsFree_idle (s : State) (l : Loc) (h : s.busy = false) : s.readsFree l = false := by
  simp [State.readsFree, State.running, h]

/-- No HOST read of a location that READBACK = 0 hides is free. -/
theorem readsFree_hidden (s : State) (l : Loc) (h : s.hidden l = true) : s.readsFree l = false := by
  simp [State.readsFree, h]

/-- What the HOST's read leaves: everything but what it was handed and the count of draws. -/
theorem hostRead_eq (s : State) (l : Loc) :
    s.hostRead l =
      { s with reads := (if s.readsFree l then s.freeAt l else s.valueAt l) :: s.reads,
               draws := if s.readsFree l then s.draws + 1 else s.draws } := by
  unfold State.hostRead
  split <;> simp_all [State.drawn]

/-- What TAINT's setting leaves: everything but TAINT. -/
theorem markTaint_eq (s : State) : s.markTaint = { s with taint := s.busy || s.taint } := by
  unfold State.markTaint
  split
  · next h => rw [h]; rfl
  · next h => rw [show (s.busy || s.taint) = s.taint by simp [h]]

/-- Everything the HOST's write can do: issue, control, or store (nothing, at a read-only location) and set TAINT. -/
theorem hostWrite_cases (s : State) (l : Loc) (v : Word) :
    (l = .cmd ∧ s.hostWrite l v = s.writeCmd v) ∨ (l = .ctrl ∧ s.hostWrite l v = s.writeCtrl v) ∨
    (l.readOnly = true ∧ s.hostWrite l v = s.markTaint) ∨
    (l ≠ .cmd ∧ l ≠ .ctrl ∧ l.readOnly = false ∧ s.hostWrite l v = (s.storeAt l v).markTaint) := by
  unfold State.hostWrite
  by_cases hc : l = .cmd
  · simp [hc]
  by_cases ht : l = .ctrl
  · simp [ht]
  cases hr : l.readOnly <;> simp [hc, ht]

end Sys2Proof.Machine
end

