-- ==== Sys2Proof/Laws/PerInstr.lean ====
section
/-! SUPPORT. Statements for all commands, one lemma a constructor. Family Coding: the command's word has RSV = 0, and the
decoder reads the command back from it wherever the command exists (spec/30_encoding.md R125, R126). -/

namespace Sys2Proof.Laws.Coding

/-- The word of a command decodes to it, with IVGEN legal only where HAS_RNG = 1. -/
def Statement (i : Instr) : Prop :=
  cmdRsv (encode i) = 0 ∧ ∀ p, decode p (encode i) = if i.wf p then .command i else .illegal .noRng

theorem nop : Statement .nop := ⟨by decide, fun _ => rfl⟩
theorem gfmulRs : Statement .gfmulRs := ⟨by decide, fun _ => rfl⟩
theorem gfmulMds : Statement .gfmulMds := ⟨by decide, fun _ => rfl⟩
theorem mdsgen : Statement .mdsgen := ⟨by decide, fun _ => rfl⟩
theorem rsred : Statement .rsred := ⟨by decide, fun _ => rfl⟩
theorem hfuncK2 : Statement .hfuncK2 := ⟨by decide, fun _ => rfl⟩
theorem hfuncK3 : Statement .hfuncK3 := ⟨by decide, fun _ => rfl⟩
theorem hfuncK4 : Statement .hfuncK4 := ⟨by decide, fun _ => rfl⟩
theorem keysched : Statement .keysched := ⟨by decide, fun _ => rfl⟩
theorem keyclr : Statement .keyclr := ⟨by decide, fun _ => rfl⟩
theorem gfunc : Statement .gfunc := ⟨by decide, fun _ => rfl⟩
theorem encblk : Statement .encblk := ⟨by decide, fun _ => rfl⟩
theorem decblk : Statement .decblk := ⟨by decide, fun _ => rfl⟩
theorem cbcenc : Statement .cbcenc := ⟨by decide, fun _ => rfl⟩
theorem cbcdec : Statement .cbcdec := ⟨by decide, fun _ => rfl⟩
theorem chaininit : Statement .chaininit := ⟨by decide, fun _ => rfl⟩
theorem ivgen : Statement .ivgen := ⟨by decide, fun _ => rfl⟩
theorem pad : Statement .pad := ⟨by decide, fun _ => rfl⟩
theorem unpad : Statement .unpad := ⟨by decide, fun _ => rfl⟩
theorem msgenc : Statement .msgenc := ⟨by decide, fun _ => rfl⟩
theorem msgdec : Statement .msgdec := ⟨by decide, fun _ => rfl⟩

end Sys2Proof.Laws.Coding
end

