-- ==== Sys2Proof/Machine/Script.lean ====
section
/-! DEFINITION. The pseudo-instructions of the host-script syntax, as the HOST accesses they expand to
(spec/30_encoding.md R130, R131). `W` and `R` are HostOp.write and HostOp.read of width 4, WAIT is HostOp.wait, and CHECK is
no transaction. -/

namespace Sys2Proof.Machine

/-- `W offset, value`. -/
def scriptW (offset : Nat) (v : Word) : HostOp := .write 4 (BitVec.ofNat 16 offset) v

/-- `R offset`. -/
def scriptR (offset : Nat) : HostOp := .read 4 (BitVec.ofNat 16 offset)

/-- `CMD mnemonic`: a write of the command's word to CMD. -/
def scriptCmd (i : Instr) : List HostOp := [scriptW 0x010 (encode i)]

/-- `WAIT`. -/
def scriptWait : List HostOp := [.wait]

/-- Writes of the words `ws` to `base`, `base + 4`, ... -/
def writeWords (base : Nat) (ws : List Word) : List HostOp :=
  match ws with
  | [] => []
  | w :: rest => scriptW base w :: writeWords (base + 4) rest

/-- The words of a byte string under `wordsLE`, the last one filled with zero bytes (LDBUF). -/
def wordsOfBytes (bs : List Byte) : List Word :=
  match bs with
  | [] => []
  | [b0] => [wordOf b0 0 0 0]
  | [b0, b1] => [wordOf b0 b1 0 0]
  | [b0, b1, b2] => [wordOf b0 b1 b2 0]
  | b0 :: b1 :: b2 :: b3 :: rest => wordOf b0 b1 b2 b3 :: wordsOfBytes rest

/-- `LD4 base, bytes`: a 16-byte value to four words. -/
def scriptLd4 (base : Nat) (bs : List Byte) : List HostOp := writeWords base (wordsOfBytes bs)

/-- `LDKEY bytes`: the key to KEY0 on, then its byte count to KEYLEN. -/
def scriptLdkey (bs : List Byte) : List HostOp :=
  writeWords 0x040 (wordsOfBytes bs) ++ [scriptW 0x020 (BitVec.ofNat 32 bs.length)]

/-- `LDBUF bytes`: the bytes to INBUF, then their count to MSGLEN. -/
def scriptLdbuf (bs : List Byte) : List HostOp :=
  writeWords 0x4000 (wordsOfBytes bs) ++ [scriptW 0x024 (BitVec.ofNat 32 bs.length)]

/-- `RD4 base`: four reads. -/
def scriptRd4 (base : Nat) : List HostOp := [scriptR base, scriptR (base + 4), scriptR (base + 8), scriptR (base + 12)]

end Sys2Proof.Machine
end

