-- ==== Sys2Proof/Tests/Slice0.lean ====
section
/-! SUPPORT. Tests of one step each, with expected values from spec/95_test_vectors.md, the spec's examples, or a hand calculation
the comment gives, and for every statement with hypotheses a witness that meets them. -/

open Sys2Proof Sys2Proof.Machine Sys2Proof.Cert

namespace Sys2Proof.Tests

/-- A command word from its fields (30_encoding.md R120). -/
def word (op : BitVec 8) (arg : BitVec 4) (rsv : BitVec 20) : BitVec 32 := rsv ++ arg ++ op

/-- The next state of an outcome. -/
def nextOf (o : Host.Outcome State Fault Refusal) : Option State :=
  match o with
  | .next s => some s
  | .fault _ => none
  | .refused _ => none

/-- The fault of an outcome. -/
def faultOf (o : Host.Outcome State Fault Refusal) : Option Fault :=
  match o with
  | .next _ => none
  | .fault f => some f
  | .refused _ => none

/-- A state right after reset with the bytes `bs` in INBUF from its start, and MSGLEN their number. -/
def withMessage (bs : List Byte) : State :=
  { State.reset.storeBytes inbufBase bs with msglen := BitVec.ofNat 32 bs.length }

/-- A key context whose arrays are all zero: g is 0 everywhere, so E and D map the zero block to itself. -/
def zeroCtx : KeyCtx := { KeyCtx.empty with valid := true, keysz := 1 }

/-- A state with that context. -/
def keyed : State := { State.reset with ctx := zeroCtx }

/-- A block of 16 equal bytes. -/
def quad (w : Word) : Quad := ⟨w, w, w, w⟩

/-- The block 00 01 02 ... 0F. -/
def countBlock : Quad := ⟨0x03020100, 0x07060504, 0x0B0A0908, 0x0F0E0D0C⟩

/-- The HOST about to make the access `op`, the CORE idle. -/
def hostAt (op : HostOp) : State := { State.reset with host := [op] }

/-- The same with the command word `w` running. -/
def busyAt (w : Word) (op : HostOp) : State :=
  { State.reset with host := [op], busy := true, lastcmd := w, pending := w, countdown := 1 }

/-! ### Well-formedness -/

theorem test_wf_ivgen_needs_rng : Instr.wf { Params.default with hasRng := false } .ivgen = false := by decide
theorem test_wf_ivgen : Instr.wf Params.default .ivgen = true := by decide
theorem test_wf_access_width : HostOp.wf Params.default (.read 2 0x000) = false := by decide
theorem test_wf_access_alignment : HostOp.wf Params.default (.write 4 0x002 0) = false := by decide
theorem test_wf_access_unmapped : HostOp.wf Params.default (.read 4 0x02C) = false := by decide
theorem test_wf_access : HostOp.wf Params.default (.read 4 0x43FC) = true := by decide

/-! ### Decoding: each word written out from its fields (30_encoding.md R120 to R125) -/

theorem test_decode_nop : decode Params.default (word 0b00000000 0b0000 0) = .command .nop := by decide
theorem test_decode_gfmulRs : decode Params.default (word 0b00000001 0b0000 0) = .command .gfmulRs := by decide
theorem test_decode_gfmulMds : decode Params.default (word 0b00000001 0b0001 0) = .command .gfmulMds := by decide
theorem test_decode_mdsgen : decode Params.default (word 0b00000010 0b0000 0) = .command .mdsgen := by decide
theorem test_decode_rsred : decode Params.default (word 0b00000011 0b0000 0) = .command .rsred := by decide
theorem test_decode_hfuncK2 : decode Params.default (word 0b00000100 0b0010 0) = .command .hfuncK2 := by decide
theorem test_decode_hfuncK3 : decode Params.default (word 0b00000100 0b0011 0) = .command .hfuncK3 := by decide
theorem test_decode_hfuncK4 : decode Params.default (word 0b00000100 0b0100 0) = .command .hfuncK4 := by decide
theorem test_decode_keysched : decode Params.default (word 0b00000101 0b0000 0) = .command .keysched := by decide
theorem test_decode_keyclr : decode Params.default (word 0b00000110 0b0000 0) = .command .keyclr := by decide
theorem test_decode_gfunc : decode Params.default (word 0b00000111 0b0000 0) = .command .gfunc := by decide
theorem test_decode_encblk : decode Params.default (word 0b00001000 0b0000 0) = .command .encblk := by decide
theorem test_decode_decblk : decode Params.default (word 0b00001001 0b0000 0) = .command .decblk := by decide
theorem test_decode_cbcenc : decode Params.default (word 0b00001010 0b0000 0) = .command .cbcenc := by decide
theorem test_decode_cbcdec : decode Params.default (word 0b00001011 0b0000 0) = .command .cbcdec := by decide
theorem test_decode_chaininit : decode Params.default (word 0b00001100 0b0000 0) = .command .chaininit := by decide
theorem test_decode_ivgen : decode Params.default (word 0b00001101 0b0000 0) = .command .ivgen := by decide
theorem test_decode_pad : decode Params.default (word 0b00010000 0b0000 0) = .command .pad := by decide
theorem test_decode_unpad : decode Params.default (word 0b00010001 0b0000 0) = .command .unpad := by decide
theorem test_decode_msgenc : decode Params.default (word 0b00010010 0b0000 0) = .command .msgenc := by decide
theorem test_decode_msgdec : decode Params.default (word 0b00010011 0b0000 0) = .command .msgdec := by decide

/-- 95_test_vectors.md 2.6: the illegal words of the ILLEGAL_CMD row. -/
theorem test_decode_illegal :
    [0x00000504, 0x0000000E, 0x0000000F, 0x00000014, 0x000000FF, 0x00001001, 0x80000008, 0x00000102, 0x0000010C,
     0x00000201, 0x00000004, 0x00000104, 0x00000804].all (fun w => (decode Params.default w).instr? == none) = true := by
  decide

/-- 30_encoding.md R126: IVGEN's word where HAS_RNG = 0. -/
theorem test_decode_ivgen_without_rng :
    decode { Params.default with hasRng := false } 0x0000000D = .illegal .noRng := by decide

/-- R120: a row's bits, numbered from the first word's bit 0, are the command word. -/
theorem test_decodeTableWord : decodeTableWord 32 0x00000304 = some .hfuncK3 := by decide

/-! ### The Q permutations -/

/-- 2.2.1: spot values. -/
theorem test_q_spot : [q0 0x00, q0 0x01, q0 0xFF, q1 0x00, q1 0x01, q1 0xFF] = [0xA9, 0x67, 0xE0, 0x75, 0xF3, 0x91] := by decide

/-! ### Commands, one step each -/

/-- R312: NOP after an error leaves ERR = 0, ERRCODE = 0, DONE = 1. -/
theorem test_nop : (nextOf (exec .nop { State.reset with err := true, errcode := .keysize })).map statusWord = some 0x002 := by
  decide

/-- 2.1.1: bits above 7 of the operands are ignored. -/
theorem test_gfmulRs :
    (nextOf (exec .gfmulRs { State.reset with opa := 0xFFFFFF57, opb := 0x12345683 })).map (·.result) = some 0x43 := by decide
/-- S1: x^8 is reduced by 0x14D. -/
theorem test_gfmulRs_polynomial :
    (nextOf (exec .gfmulRs { State.reset with opa := 0x02, opb := 0x80 })).map (·.result) = some 0x4D := by decide
theorem test_gfmulMds :
    (nextOf (exec .gfmulMds { State.reset with opa := 0x57, opb := 0x83 })).map (·.result) = some 0x46 := by decide
theorem test_gfmulMds_polynomial :
    (nextOf (exec .gfmulMds { State.reset with opa := 0xEF, opb := 0x80 })).map (·.result) = some 0xE0 := by decide

/-- 2.1.2: entries of the MDS window after MDSGEN. -/
theorem test_mdsgen : (nextOf (exec .mdsgen State.reset)).map (fun t =>
    [t.valueAt (.mds 0 1), t.valueAt (.mds 1 1), t.valueAt (.mds 2 0x80), t.valueAt (.mds 3 0xFF)]) =
      some [0xEFEF5B01, 0x015BEFEF, 0xE080E0A0, 0x2EE5FF2E] := by decide +kernel
/-- 2.1.2: the gate before, and STATUS after. -/
theorem test_mdsgen_status : State.reset.valueAt (.mds 0 1) = 0 ∧
    (nextOf (exec .mdsgen State.reset)).map statusWord = some 0x102 := by decide +kernel

/-- R159: m = 00 01 ... 07. -/
theorem test_rsred :
    (nextOf (exec .rsred { State.reset with opa := 0x03020100, opb := 0x07060504 })).map (·.result) = some 0x2F062AD7 := by
  decide +kernel
/-- 2.1.3: column 5 of the RS matrix. -/
theorem test_rsred_column :
    (nextOf (exec .rsred { State.reset with opb := 0x100 })).map (·.result) = some 0xDBAEC658 := by decide +kernel

/-- 2.2.2, the rows with OPA = 0x03020100. -/
theorem test_hfuncK2 :
    (nextOf (exec .hfuncK2 { State.reset with opa := 0x03020100, hl := ⟨0x07060504, 0x0B0A0908, 0xFFFFFFFF, 0xFFFFFFFF⟩ })).map
      (fun t => (t.result, t.mdsValid)) = some (0xB8DA2C86, true) := by decide +kernel
theorem test_hfuncK3 :
    (nextOf (exec .hfuncK3 { State.reset with opa := 0x03020100, hl := ⟨0x07060504, 0x0B0A0908, 0x0F0E0D0C, 0xFFFFFFFF⟩ })).map
      (·.result) = some 0x8265CAF6 := by decide +kernel
theorem test_hfuncK4 :
    (nextOf (exec .hfuncK4 { State.reset with opa := 0x03020100, hl := ⟨0x07060504, 0x0B0A0908, 0x0F0E0D0C, 0x13121110⟩ })).map
      (·.result) = some 0x7A6E27A3 := by decide +kernel

/-- 2.2.3, 2.2.4, key Z128: subkeys 0 and 1, an S-box entry and STATUS. -/
theorem test_keysched : (nextOf (exec .keysched { State.reset with keylen := 16 })).map (fun t =>
    [t.valueAt (.subkey 0), t.valueAt (.subkey 1), t.valueAt (.sbox 3 0xFF), statusWord t]) =
      some [0x52C54DDE, 0x11F0626D, 0x91862E91, 0x702] := by decide +kernel
/-- 2.2.3, 2.2.4, key B192: the S words in chunk order, SUBKEY[39] and the S-box entry that is 0. -/
theorem test_keysched_b192 :
    (nextOf (exec .keysched { State.reset with
      keylen := 24, key := #v[0x67452301, 0xEFCDAB89, 0x98BADCFE, 0x10325476, 0x33221100, 0x77665544, 0, 0] })).map (fun t =>
        [t.valueAt (.sword 0), t.valueAt (.sword 2), t.valueAt (.sword 3), t.valueAt (.subkey 39), t.valueAt (.sbox 2 0),
         statusWord t]) = some [0xB89FF6F2, 0x45661061, 0, 0x6A1AD61E, 0, 0xB02] := by decide +kernel

/-- 2.2.5: KEYCLR keeps MDS_VALID and zeroes the key registers. -/
theorem test_keyclr : (nextOf (exec .keyclr { keyed with mdsValid := true, key := Vector.replicate 8 0xFFFFFFFF })).map (fun t =>
    (statusWord t, t.key[7], t.valueAt (.subkey 0))) = some (0x102, 0, 0) := by decide

/-- 2.2.6, key Z128: g(0x03020100) through the S-boxes that KEYSCHED builds. -/
theorem test_gfunc : (nextOf (exec .gfunc { State.reset with
    ctx := keySchedule mdsTables (Vector.replicate 8 0) 2, opa := 0x03020100 })).map (·.result) = some 0xE1C48DB0 := by
  decide +kernel
/-- 2.2.6: NOKEY, RESULT unchanged. -/
theorem test_gfunc_nokey : (nextOf (exec .gfunc { State.reset with result := 7 })).map (fun t => (statusWord t, t.result)) =
    some (0x056, 7) := by decide

/-- S5: the known vector, key Z128 and the zero block. -/
theorem test_encblk : (nextOf (exec .encblk { State.reset with
    ctx := keySchedule mdsTables (Vector.replicate 8 0) 2 })).map (·.dout) =
      some ⟨0x5C9F589F, 0x322C12F6, 0x2FECBFB6, 0x5AC3E82A⟩ := by decide +kernel
/-- S3: row 1 of the round trace. -/
theorem test_encryption_round : encRound (keySchedule mdsTables (Vector.replicate 8 0) 2)
    ⟨0x52C54DDE, 0x11F0626D, 0x7CAC9D4A, 0x4D1B4AAA⟩ 0 = ⟨0xC38DCAA4, 0x7A0A91B6, 0x52C54DDE, 0x11F0626D⟩ := by decide +kernel
/-- 2.3.2 backwards: decryption round 0 from row 1 with its swap undone. -/
theorem test_decryption_round : decRound (keySchedule mdsTables (Vector.replicate 8 0) 2)
    ⟨0x52C54DDE, 0x11F0626D, 0xC38DCAA4, 0x7A0A91B6⟩ 0 = ⟨0x52C54DDE, 0x11F0626D, 0x7CAC9D4A, 0x4D1B4AAA⟩ := by decide +kernel
/-- By hand: with every subkey and S-box entry 0, D of the zero block is the zero block. -/
theorem test_decblk : (nextOf (exec .decblk { keyed with dout := countBlock })).map (fun t => (t.dout, statusWord t)) =
    some (quad 0, 0x602) := by decide +kernel

/-- By hand: with every subkey and S-box entry 0, E of DIN xor CHAIN = 0 is 0. -/
theorem test_cbcenc : (nextOf (exec .cbcenc { keyed with din := countBlock, chain := countBlock })).map
    (fun t => (t.dout, t.chain)) = some (quad 0, quad 0) := by decide +kernel
/-- By hand: D of the zero block is 0, so DOUT is CHAIN, and CHAIN becomes the ciphertext. -/
theorem test_cbcdec : (nextOf (exec .cbcdec { keyed with chain := countBlock })).map
    (fun t => (t.dout, t.chain)) = some (countBlock, quad 0) := by decide +kernel

/-- 2.4.1: CHAININIT without a key. -/
theorem test_chaininit : (nextOf (exec .chaininit { State.reset with iv := countBlock })).map
    (fun t => (t.chain, t.iv, statusWord t)) = some (countBlock, countBlock, 0x002) := by decide

/-- 2.4.1: IVGEN completes and leaves CHAIN unchanged. -/
theorem test_ivgen : (nextOf (exec .ivgen { State.reset with chain := countBlock })).map
    (fun t => (t.chain, statusWord t)) = some (countBlock, 0x002) := by decide
/-- 2.4.1: IVGEN with HAS_RNG = 0. -/
theorem test_ivgen_without_rng : (nextOf (exec .ivgen (State.powerOn { Params.default with hasRng := false }))).map
    (fun t => (t.iv, statusWord t)) = some (quad 0, 0x016) := by decide

/-- 2.4.3: three bytes. -/
theorem test_pad : (nextOf (exec .pad (withMessage [0x61, 0x62, 0x63]))).map
    (fun t => (t.outlen, t.bytesAt outbufBase 16)) =
      some (16, [0x61, 0x62, 0x63, 0x0D, 0x0D, 0x0D, 0x0D, 0x0D, 0x0D, 0x0D, 0x0D, 0x0D, 0x0D, 0x0D, 0x0D, 0x0D]) := by
  decide +kernel
/-- 2.4.3: 1024 bytes do not fit. -/
theorem test_pad_length : (nextOf (exec .pad { State.reset with msglen := 1024, outlen := 5 })).map
    (fun t => (statusWord t, t.outlen)) = some (0x066, 5) := by decide +kernel

/-- 2.4.4: 61620202 has no multiple of 16 bytes. -/
theorem test_unpad : (nextOf (exec .unpad (withMessage [0x61, 0x62, 0x02, 0x02]))).map
    (fun t => (t.outlen, t.bytesAt outbufBase 2)) = some (2, [0x61, 0x62]) := by decide +kernel
/-- 2.4.4: N = 5 is more than MSGLEN. -/
theorem test_unpad_padding : (nextOf (exec .unpad (withMessage [0x61, 0x62, 0x05]))).map statusWord = some 0x046 := by
  decide +kernel

/-- A state whose MSGENC is computed by hand: the empty message, IV = 16 bytes 10 and the zero context. -/
def sealing : State := { keyed with iv := quad 0x10101010 }

/-- By hand: the padding block xor IV is 0, and E of 0 is 0. -/
theorem test_msgenc : (nextOf (exec .msgenc sealing)).map (fun t => (t.outlen, t.bytesAt outbufBase 32)) =
    some (32, List.replicate 16 0x10 ++ List.replicate 16 0x00) := by decide +kernel
/-- 2.4.5: NOKEY comes before LENGTH. -/
theorem test_msgenc_precedence : (nextOf (exec .msgenc { State.reset with msglen := 2000 })).map statusWord = some 0x056 := by
  decide

/-- A state that holds what MSGENC makes of `sealing`, ready for MSGDEC. -/
def sealed : State := { withMessage (List.replicate 16 0x10 ++ List.replicate 16 0x00) with ctx := zeroCtx }

/-- By hand: D of 0 is 0, and 0 xor IV is a padding block, so the message is empty. -/
theorem test_msgdec : (nextOf (exec .msgdec sealed)).map (fun t => (t.outlen, statusWord t)) = some (0, 0x602) := by
  decide +kernel
/-- 2.4.6: BLOCKSIZE for 17 bytes. -/
theorem test_msgdec_blocksize : (nextOf (exec .msgdec { keyed with msglen := 17, outlen := 9 })).map
    (fun t => (statusWord t, t.outlen)) = some (0x636, 9) := by decide +kernel

/-! ### The host bus and the system (95_test_vectors.md 2.5, 2.6) -/

theorem test_read_id : (nextOf (step (hostAt (scriptR 0x000)))).map (·.reads) = some [0x54460007] := by decide
theorem test_read_caps : (nextOf (step (hostAt (scriptR 0x004)))).map (·.reads) = some [0x00030040] := by decide
theorem test_bus_unmapped : faultOf (step (hostAt (scriptR 0x02C))) = some .busUnmapped := by decide
theorem test_bus_misaligned : faultOf (step (hostAt (.read 4 0x002))) = some .busAlign := by decide
theorem test_bus_beyond_buffer : [0x10A0, 0x4400, 0x8400].map (fun a => faultOf (step (hostAt (scriptR a)))) =
    [some .busUnmapped, some .busUnmapped, some .busUnmapped] := by decide
theorem test_bus_last_words : [(0x28, Loc.outlen), (0x9C, .dout 3), (0x109C, .subkey 39), (0x110C, .sword 3),
    (0x2FFC, .sbox 3 255), (0x3404, .mds 1 1), (0x43FC, .inbuf 255), (0x83FC, .outbuf 255)].all
      (fun r => decide ((busLocate Params.default 4 r.1).toOption = some r.2)) = true := by decide
/-- A word written to INBUF reads back, its first byte lowest. -/
theorem test_inbuf_word : (nextOf (step (hostAt (scriptW 0x4000 0x00636261)))).map
    (fun t => (t.valueAt (.inbuf 0), t.byteAt 0x4000)) = some (0x00636261, 0x61) := by decide
theorem test_result_is_read_only : (nextOf (step (hostAt (scriptW 0x01C 7)))).map (·.result) = some 0 := by decide
/-- W CTRL, 0x6 after a completion with IRQEN = 1. -/
theorem test_ctrl_clear : (nextOf (step { hostAt (scriptW 0x008 6) with done := true, irqen := true, overrun := true })).map
    (fun t => (statusWord t, ctrlWord t)) = some (0, 2) := by decide
/-- A second command word while BUSY = 1 is dropped. -/
theorem test_overrun : (nextOf (step (busyAt 8 (scriptW 0x010 9)))).map
    (fun t => (t.pending, t.lastcmd, statusWord t)) = some (8, 8, 0x009) := by decide
/-- R314: a store while BUSY = 1 sets TAINT. -/
theorem test_taint : (nextOf (step (busyAt 8 (scriptW 0x014 3)))).map (fun t => (t.opa, t.taint)) = some (3, true) := by decide
/-- R367: any location other than CTRL and CMD, a read-only one too. -/
theorem test_taint_read_only : (nextOf (step (busyAt 8 (scriptW 0x01C 3)))).map (fun t => (t.result, t.taint)) =
    some (0, true) := by decide
/-- R9: with READBACK = 0 every read of the SUBKEY window returns 0, KEYSCHED running or not. -/
theorem test_hidden_read : (nextOf (step { busyAt 5 (scriptR 0x1000) with
    params := { Params.default with readback := false } })).map (·.reads) = some [0] := by decide
/-- R311, R156: a tainted KEYSCHED with KEYLEN = 0 builds no tables. -/
theorem test_tainted_keysched : (nextOf (exec .keysched { State.reset with busy := true, taint := true })).map (·.mdsValid) =
    some false := by decide
/-- R322: an ILLEGAL word completes with ILLEGAL_CMD. 0x00001005 is KEYSCHED with RSV not 0. -/
theorem test_illegal_command : (nextOf (step (State.reset.withFetchWord 32 0x00001005))).map
    (fun t => (t.lastcmd, statusWord t)) = some (0x00001005, 0x016) := by decide
/-- R131: a poll of WAIT that reads BUSY = 1 is made again. -/
theorem test_wait_busy : (nextOf (step (busyAt 8 .wait))).map (fun t => (t.host, t.reads)) = some ([.wait], [1]) := by decide
/-- R131: the poll of WAIT ends on a STATUS read with BUSY = 0. -/
theorem test_wait : (nextOf (step (hostAt .wait))).map (fun t => (t.host, t.reads)) = some ([], [0]) := by decide
/-- R130, R131: LDKEY of a 16-byte key is four words and KEYLEN. -/
theorem test_script_ldkey : scriptLdkey (quadBytes countBlock) =
    [.write 4 0x40 0x03020100, .write 4 0x44 0x07060504, .write 4 0x48 0x0B0A0908, .write 4 0x4C 0x0F0E0D0C,
     .write 4 0x20 16] := by decide

/-! ### Witnesses: states and operands that meet the hypotheses of each statement -/

/-- GFMUL.RS issued and due. -/
def due : State := State.reset.withFetchWord 32 0x00000001

theorem wit_StepCompletesThePendingCommand : completionDue due ∧ decode due.params due.pending = .command .gfmulRs :=
  ⟨⟨rfl, .inl rfl⟩, by decide⟩
/-- The other way to be due: LATENCY has not passed, and the HOST makes no access. -/
theorem wit_StepCompletesThePendingCommand_quiet_host : completionDue { due with countdown := 5 } ∧
    decode due.params due.pending = .command .gfmulRs := ⟨⟨rfl, .inr rfl⟩, by decide⟩
/-- The same under TAINT. -/
theorem wit_IllegalWordCompletesWithIllegalCmd_tainted : completionDue { due with pending := 0x0E, taint := true } ∧
    decode due.params 0x0E = .illegal .unknownOp := ⟨⟨rfl, .inl rfl⟩, by decide⟩
theorem wit_IllegalWordCompletesWithIllegalCmd : completionDue { due with pending := 0x0E } ∧ due.taint = false ∧
    decode due.params 0x0E = .illegal .unknownOp := ⟨⟨rfl, .inl rfl⟩, rfl, by decide⟩
theorem wit_PlacedCommandRunsNext : Instr.ivgen.wf State.reset.params = true := by decide
theorem wit_IdleHoldsAllState : State.reset.busy = false ∧ State.reset.host = [] := ⟨rfl, rfl⟩
theorem wit_CmdWriteIssuesOrOverruns_idle : hostTurn (hostAt (scriptW 0x010 8)) (.write 4 0x010 8) [] ∧
    (hostAt (scriptW 0x010 8)).busy = false := ⟨⟨rfl, rfl⟩, rfl⟩
theorem wit_CmdWriteIssuesOrOverruns_busy : hostTurn (busyAt 8 (scriptW 0x010 9)) (.write 4 0x010 9) [] ∧
    (busyAt 8 (scriptW 0x010 9)).busy = true := ⟨⟨rfl, rfl⟩, rfl⟩
theorem wit_CtrlWriteActs_reset : hostTurn (busyAt 8 (scriptW 0x008 7)) (.write 4 0x008 7) [] ∧ (7 : Word).getLsbD 0 = true :=
  ⟨⟨rfl, rfl⟩, by decide⟩
theorem wit_CtrlWriteActs_irqen : hostTurn (hostAt (scriptW 0x008 2)) (.write 4 0x008 2) [] ∧
    (2 : Word).getLsbD 0 = false ∧ (2 : Word).getLsbD 2 = false := ⟨⟨rfl, rfl⟩, by decide⟩
theorem wit_CtrlWriteActs_clear : hostTurn (hostAt (scriptW 0x008 4)) (.write 4 0x008 4) [] ∧
    (4 : Word).getLsbD 0 = false ∧ (4 : Word).getLsbD 2 = true := ⟨⟨rfl, rfl⟩, by decide⟩
theorem wit_BadAccessFaults_width : hostTurn (hostAt (.read 2 0)) (.read 2 0) [] ∧ (2 : Nat) ≠ 4 := ⟨⟨rfl, rfl⟩, by decide⟩
theorem wit_BadAccessFaults_alignment : hostTurn (hostAt (.write 4 0x002 0)) (.write 4 0x002 0) [] ∧
    (0x002 : BitVec 16).toNat % 4 ≠ 0 := ⟨⟨rfl, rfl⟩, by decide⟩
theorem wit_BadAccessFaults_unmapped : hostTurn (hostAt (.read 4 0x02C)) (.read 4 0x02C) [] ∧
    ∀ l : Loc, l.mapped State.reset.params → locOffset l ≠ (0x02C : BitVec 16).toNat :=
  ⟨⟨rfl, rfl⟩, fun l _ => by cases l <;> simp [locOffset, inbufBase, outbufBase] <;> omega⟩
theorem wit_OnlyBusErrorsStop : faultOf (step (hostAt (.read 2 0))) = some .busWidth := by decide
theorem wit_WellFormedHostRunsSafely : (hostAt (scriptR 0x00C)).hostWf := by unfold State.hostWf; decide
theorem wit_ReadOnlyWritesAreIgnored : hostTurn (hostAt (scriptW 0x83FC 7)) (.write 4 0x83FC 7) [] ∧
    busLocate State.reset.params 4 0x83FC = .ok (.outbuf 255) ∧ (Loc.outbuf 255).readOnly = true := ⟨⟨rfl, rfl⟩, rfl, rfl⟩
theorem wit_ReadOnlyWritesAreIgnored_busy : hostTurn (busyAt 8 (scriptW 0x01C 7)) (.write 4 0x01C 7) [] ∧
    busLocate State.reset.params 4 0x01C = .ok .result ∧ Loc.result.readOnly = true ∧ (busyAt 8 (scriptW 0x01C 7)).busy = true :=
  ⟨⟨rfl, rfl⟩, rfl, rfl, rfl⟩
theorem wit_ReadOnlyWritesAreIgnored_ctrl : (0xFFFFFFFA : Word).extractLsb' 0 3 = (2 : Word).extractLsb' 0 3 := by decide
theorem wit_HostStoreTakesEffectAndTaints : hostTurn (busyAt 8 (scriptW 0x05C 7)) (.write 4 0x05C 7) [] ∧
    busLocate State.reset.params 4 0x05C = .ok (.key 7) ∧ (Loc.key 7).readOnly = false ∧ Loc.key 7 ≠ .cmd ∧
    Loc.key 7 ≠ .ctrl := ⟨⟨rfl, rfl⟩, rfl, rfl, by decide, by decide⟩
theorem wit_StoredWordReadsBack : (Loc.inbuf 255).readOnly = false ∧ Loc.inbuf 255 ≠ .cmd ∧ Loc.inbuf 255 ≠ .ctrl ∧
    (∀ i, Loc.inbuf 255 ≠ .key i) ∧ (Loc.inbuf 255).mapped State.reset.params ∧
    Loc.outbuf 0 ≠ .inbuf 255 ∧ (Loc.outbuf 0).mapped State.reset.params :=
  ⟨rfl, by decide, by decide, by decide, show 4 * 255 < _ by decide, by decide, show 4 * 0 < _ by decide⟩
theorem wit_WindowReadsAreGated_closed : State.reset.ctx.valid = false ∧ State.reset.mdsValid = false := ⟨rfl, rfl⟩
theorem wit_WindowReadsAreGated_no_readback :
    (State.powerOn { Params.default with readback := false }).params.readback = false := rfl
theorem wit_WindowReadsAreGated_open : keyed.ctx.valid = true ∧ keyed.params.readback = true ∧
    { keyed with mdsValid := true }.mdsValid = true := ⟨rfl, rfl, rfl⟩
theorem wit_HostReadReturnsTheValue : hostTurn (busyAt 8 (scriptR 0x014)) (.read 4 0x014) [] ∧
    busLocate State.reset.params 4 0x014 = .ok .opa ∧ (busyAt 8 (scriptR 0x014)).readsFree .opa = false :=
  ⟨⟨rfl, rfl⟩, rfl, rfl⟩
theorem wit_HostReadReturnsTheValue_running : hostTurn (busyAt 8 (scriptR 0x09C)) (.read 4 0x09C) [] ∧
    busLocate State.reset.params 4 0x09C = .ok (.dout 3) ∧ (busyAt 8 (scriptR 0x09C)).readsFree (.dout 3) = true :=
  ⟨⟨rfl, rfl⟩, rfl, rfl⟩
/-- KEYSCHED running, READBACK = 0 and the last subkey. -/
theorem wit_HostReadReturnsTheValue_hidden :
    let s := { busyAt 5 (scriptR 0x109C) with params := { Params.default with readback := false } }
    hostTurn s (.read 4 0x109C) [] ∧ busLocate s.params 4 0x109C = .ok (.subkey 39) ∧ s.running (.subkey 39) = true ∧
    s.params.readback = false ∧ (Loc.subkey 39).isKeyTable = true := ⟨⟨rfl, rfl⟩, rfl, rfl, rfl, rfl⟩
/-- WAIT with BUSY = 1 and with BUSY = 0. -/
theorem wit_HostReadReturnsTheValue_wait : hostTurn (busyAt 8 .wait) .wait [] ∧ (busyAt 8 .wait).busy = true ∧
    hostTurn (hostAt .wait) .wait [] ∧ (hostAt .wait).busy = false := ⟨⟨rfl, rfl⟩, rfl, ⟨rfl, rfl⟩, rfl⟩
theorem wit_HostReadReturnsTheValue_status : hostTurn (busyAt 8 (scriptR 0x00C)) (.read 4 0x00C) [] ∧
    busLocate State.reset.params 4 0x00C = .ok .status ∧ Loc.status.statusSide = true := ⟨⟨rfl, rfl⟩, rfl, rfl⟩
theorem wit_PendingCommandCompletes : (busyAt 8 .wait).busy = true := rfl

/-- Meets `taint = false` and `MDS_VALID = 1 → the tables are built`: the premises of NopWritesOnlyStatus, GfmulWritesTheProduct,
MdsgenBuildsTheTables, RsredWritesTheReduction, HfuncWritesH, KeyclrErasesTheKey, ChaininitCopiesIv, ErrorsAreReportedInOrder. -/
theorem wit_untainted : State.reset.taint = false ∧ (State.reset.mdsValid = true → State.reset.mds = mdsTables) :=
  ⟨rfl, fun h => nomatch h⟩
/-- The same with the tables built: MDSGEN's and HFUNC's other case. -/
theorem wit_untainted_tables_built : State.reset.ensureMds.taint = false ∧ State.reset.ensureMds.mdsValid = true ∧
    State.reset.ensureMds.mds = mdsTables := ⟨rfl, rfl, rfl⟩
theorem wit_KeyschedBuildsTheContext_16 : (({ State.reset with keylen := 16 } : State).keylen, 2) ∈
    [((16 : Word), 2), (24, 3), (32, 4)] := by decide
theorem wit_KeyschedBuildsTheContext_24 : (({ State.reset with keylen := 24 } : State).keylen, 3) ∈
    [((16 : Word), 2), (24, 3), (32, 4)] := by decide
theorem wit_KeyschedBuildsTheContext_32 : (({ State.reset with keylen := 32 } : State).keylen, 4) ∈
    [((16 : Word), 2), (24, 3), (32, 4)] := by decide
theorem wit_KeyschedRejectsOtherLengths : [(0 : Word), 15, 17, 33, 0x110].all (fun n =>
    let s := { State.reset with keylen := n }
    s.taint == false && s.keylen != 16 && s.keylen != 24 && s.keylen != 32) = true := by decide
/-- Two states that differ in KEY4 to KEY7, beyond a 16-byte key. -/
theorem wit_ContextDependsOnTheKeyBytesOnly :
    let s := { State.reset with keylen := 16 }
    let s' := { s with key := #v[0, 0, 0, 0, 0xFFFFFFFF, 0xFFFFFFFF, 0xFFFFFFFF, 0xFFFFFFFF] }
    s.taint = false ∧ s'.taint = false ∧ s.mdsValid = false ∧ s'.mdsValid = false ∧
    (s.keylen, 2) ∈ [((16 : Word), 2), (24, 3), (32, 4)] ∧ s'.keylen = s.keylen ∧
    (∀ i, i < 2 * 2 → keyWord s'.key i = keyWord s.key i) ∧ s'.key ≠ s.key := by decide
/-- The premises of both clauses of GfuncWritesG, BlockCommandsWriteDout, CbcCommandsChain. -/
theorem wit_keyed : keyed.taint = false ∧ keyed.ctx.valid = true ∧ State.reset.taint = false ∧ State.reset.ctx.valid = false :=
  ⟨rfl, rfl, rfl, rfl⟩
theorem wit_IvgenDrawsTheIv : State.reset.taint = false ∧ State.reset.params.hasRng = true ∧
    (State.powerOn { Params.default with hasRng := false }).params.hasRng = false := ⟨rfl, rfl, rfl⟩
/-- MSGLEN 1023 is the last that fits, 1024 the first that does not. -/
theorem wit_PadWritesThePaddedMessage :
    let s := { State.reset with msglen := 1023 }
    let u := { State.reset with msglen := 1024 }
    s.taint = false ∧ msgLen s + (16 - msgLen s % 16) ≤ s.params.bufBytes ∧
    u.taint = false ∧ u.params.bufBytes < msgLen u + (16 - msgLen u % 16) := by decide
theorem wit_UnpadStripsThePadding :
    let s := withMessage [0x01]
    s.taint = false ∧ msgLen s ≤ s.params.bufBytes ∧ (unpadBytes (s.inbuf (msgLen s))).toOption = some [] := by decide +kernel
theorem wit_UnpadStripsThePadding_padding : msgLen State.reset ≤ State.reset.params.bufBytes ∧
    unpadBytes (State.reset.inbuf (msgLen State.reset)) = .error .padding := ⟨by decide, rfl⟩
theorem wit_UnpadStripsThePadding_length :
    ({ State.reset with msglen := 1025 } : State).params.bufBytes < msgLen { State.reset with msglen := 1025 } := by decide
/-- MSGLEN 1007 is the last that fits, 1008 the first that does not. -/
theorem wit_MsgencWritesIvAndCiphertext :
    let s := { keyed with msglen := 1007 }
    let u := { keyed with msglen := 1008 }
    s.taint = false ∧ s.ctx.valid = true ∧ 16 + 16 * (msgLen s / 16) + 16 ≤ s.params.bufBytes ∧
    u.taint = false ∧ u.ctx.valid = true ∧ u.params.bufBytes < 16 + 16 * (msgLen u / 16) + 16 := by decide
theorem wit_MsgdecWritesThePlaintext :
    sealed.taint = false ∧ sealed.ctx.valid = true ∧ msgLen sealed ≤ sealed.params.bufBytes ∧ 16 ≤ msgLen sealed ∧
    msgLen sealed % 16 = 0 ∧
    (unpadBytes (blocksBytes (cbcDecrypt (decryptBlock sealed.ctx) (quadOfBytes ((sealed.inbuf (msgLen sealed)).take 16))
      (blocksOf ((sealed.inbuf (msgLen sealed)).drop 16))))).toOption = some [] := by decide +kernel
/-- MSGLEN 16 is an IV and no ciphertext: the empty plaintext has no padding. -/
theorem wit_MsgdecWritesThePlaintext_padding :
    let s := { keyed with msglen := 16 }
    s.taint = false ∧ s.ctx.valid = true ∧ msgLen s ≤ s.params.bufBytes ∧ 16 ≤ msgLen s ∧ msgLen s % 16 = 0 ∧
    unpadBytes (blocksBytes (cbcDecrypt (decryptBlock s.ctx) (quadOfBytes ((s.inbuf (msgLen s)).take 16))
      (blocksOf ((s.inbuf (msgLen s)).drop 16)))) = .error .padding := ⟨rfl, rfl, by decide, by decide, by decide, rfl⟩
theorem wit_MsgdecWritesThePlaintext_errors :
    let a := { keyed with msglen := 15 }
    let b := { keyed with msglen := 17 }
    let c := { keyed with msglen := 1025 }
    (msgLen a ≤ a.params.bufBytes ∧ msgLen a < 16) ∧ (msgLen b ≤ b.params.bufBytes ∧ msgLen b % 16 ≠ 0) ∧
    c.params.bufBytes < msgLen c := by decide
/-- A failing command: KEYSCHED with KEYLEN = 0. -/
theorem wit_FailingCommandWritesOnlyStatus : State.reset.taint = false ∧
    (nextOf (exec .keysched State.reset)).map (·.errcode) = some .keysize := by decide
theorem wit_CommandsKeepToTheirWriteSet : (nextOf (exec .encblk keyed)).isSome = true ∧
    inWriteSet keyed .encblk .opa = false ∧ Loc.opa ≠ .status ∧ Loc.opa.mapped keyed.params :=
  ⟨rfl, rfl, by decide, trivial⟩
theorem wit_TaintedCompletionKeepsMdsExact :
    let s := { State.reset with busy := true, taint := true }
    s.taint = true ∧ (nextOf (exec .hfuncK2 s)).isSome = true ∧
    s.mds = (if s.mdsValid then mdsTables else Tables.zero) ∧ (s.ctx.valid = false → s.ctx.keysz = 0) :=
  ⟨rfl, rfl, rfl, fun _ => rfl⟩
/-- KEYSCHED's two cases: KEYLEN 32, and KEYLEN 0. -/
theorem wit_TaintedCompletionKeepsMdsExact_keysched :
    let s := { State.reset with busy := true, taint := true, keylen := 32 }
    s.taint = true ∧ (nextOf (exec .keysched s)).isSome = true ∧ s.keylen ∈ [(16 : Word), 24, 32] ∧
    State.reset.keylen ∉ [(16 : Word), 24, 32] := ⟨rfl, rfl, by decide, by decide⟩
theorem wit_MsgdecRecoversWhatMsgencSealed :
    sealing.taint = false ∧ sealing.ctx.valid = true ∧ 16 * (msgLen sealing / 16) + 32 ≤ sealing.params.bufBytes ∧
    sealed.taint = false ∧ sealed.ctx = sealing.ctx ∧ 16 * (msgLen sealing / 16) + 32 ≤ sealed.params.bufBytes ∧
    (nextOf (exec .msgenc sealing)).map (fun t => (t.outlen, t.bytesAt outbufBase t.outlen.toNat)) =
      some (sealed.msglen, sealed.inbuf sealed.msglen.toNat) :=
  ⟨rfl, rfl, by decide, rfl, rfl, by decide, by decide +kernel⟩

/-- A state that meets the invariant with a command running, a message byte and the tables built. -/
def running : State :=
  { busyAt 8 (scriptW 0x014 3) with mem := [(0x4000, 0x61)], mds := mdsTables, mdsValid := true }

theorem wit_StepKeepsTheInvariant : running.Inv ∧ (nextOf (step running)).isSome = true :=
  ⟨{ errWithCode := rfl, busyClear := fun _ => ⟨rfl, rfl⟩, taintBusy := fun h => (nomatch h), pendingLast := fun _ => rfl,
     keyszZero := fun _ => rfl, mdsExact := rfl, memCanonical := rfl,
     memInBuffers := fun c hc => by
       obtain rfl := List.mem_singleton.mp hc
       exact .inl (by decide) }, rfl⟩
theorem wit_ParametersNeverChange : (nextOf (step running)).isSome = true := rfl
/-- KEYSCHED and a soft reset both change the key context. -/
theorem wit_KeyContextChangesOnlyByKeyCommands :
    (nextOf (step ({ State.reset with keylen := 16 }.withFetchWord 32 0x00000005))).map (·.ctx.valid) = some true ∧
    (nextOf (step { keyed with host := [scriptW 0x008 1] })).map (·.ctx.valid) = some false := ⟨rfl, rfl⟩
theorem wit_MdsTablesStayOnceValid : running.mdsValid = true ∧ (nextOf (step running)).map (·.mdsValid) = some true ∧
    (nextOf (step { running with host := [scriptW 0x008 1] })).map (·.mdsValid) = some false := ⟨rfl, rfl, rfl⟩
theorem wit_ReadbackOffHidesKeyMaterial :
    (State.powerOn { Params.default with readback := false }).params.readback = false := rfl
theorem wit_GfmulLaws : (0x14D : Poly) ∈ [(0x14D : Poly), 0x169] ∧ (0x169 : Poly) ∈ [(0x14D : Poly), 0x169] := by decide

end Sys2Proof.Tests
end

section
/-! The scope family (spec/00_scope.md section 3): how the HOST's turns bring BUSY down (R11), and what READBACK = 0 hides (R9). -/

open Sys2Proof Sys2Proof.Machine

namespace Sys2Proof.Proofs.Scope

/-! ### What a HOST access does to a running command -/

/-- `t` runs on from `s`: BUSY is 1, and neither the countdown nor the count of resets has moved. -/
structure RunsOn (s t : State) : Prop where
  busy : t.busy = true
  countdown : t.countdown = s.countdown
  resets : t.resets = s.resets

/-- `t` comes from `s` by a soft reset: BUSY is 0, and one more reset is counted. -/
structure ResetOf (s t : State) : Prop where
  busy : t.busy = false
  resets : t.resets = s.resets + 1

theorem hostRead_runsOn (s : State) (l : Loc) (hb : s.busy = true) : RunsOn s (s.hostRead l) := by
  rw [hostRead_eq]
  exact ⟨hb, rfl, rfl⟩

theorem storeAt_runsOn (s : State) (l : Loc) (v : Word) (hb : s.busy = true) : RunsOn s (s.storeAt l v) := by
  cases l <;> exact ⟨hb, rfl, rfl⟩

theorem markTaint_runsOn (s t : State) (h : RunsOn s t) : RunsOn s t.markTaint :=
  ⟨by simp [h.busy], by simp [h.countdown], by simp [h.resets]⟩

/-- A CMD write while BUSY = 1 is dropped (R310). -/
theorem writeCmd_runsOn (s : State) (v : Word) (hb : s.busy = true) : RunsOn s (s.writeCmd v) := by
  rw [State.writeCmd, if_pos hb]
  exact ⟨hb, rfl, rfl⟩

/-- Only SRST ends a running command (R313). -/
theorem writeCtrl_busy_cases (s : State) (v : Word) (hb : s.busy = true) :
    ResetOf s (s.writeCtrl v) ∨ RunsOn s (s.writeCtrl v) := by
  unfold State.writeCtrl
  split
  · exact .inl ⟨rfl, rfl⟩
  · split <;> exact .inr ⟨hb, rfl, rfl⟩

theorem hostWrite_busy_cases (s : State) (l : Loc) (v : Word) (hb : s.busy = true) :
    ResetOf s (s.hostWrite l v) ∨ RunsOn s (s.hostWrite l v) := by
  rcases hostWrite_cases s l v with ⟨_, h⟩ | ⟨_, h⟩ | ⟨_, h⟩ | ⟨_, _, _, h⟩ <;> rw [h]
  · exact .inr (writeCmd_runsOn s v hb)
  · exact writeCtrl_busy_cases s v hb
  · exact .inr (markTaint_runsOn s s ⟨hb, rfl, rfl⟩)
  · exact .inr (markTaint_runsOn s _ (storeAt_runsOn s l v hb))

/-! ### The end of BUSY -/

/-- The ways out of BUSY = 1: `o` is a state after a completion or after one soft reset more than `s` has seen, or a bus error
(the conclusion of O23). -/
def Ends (s : State) (o : Host.Outcome State Fault Refusal) : Prop :=
  (∃ t, o = .next t ∧ t.busy = false ∧ (t.done = true ∨ t.resets = s.resets + 1)) ∨ ∃ f, o = .fault f

/-- Of the state a run starts in, `Ends` looks at the count of resets only. -/
theorem Ends.of_resets_eq {s t : State} {o : Host.Outcome State Fault Refusal} (h : Ends t o)
    (hr : t.resets = s.resets) : Ends s o := by
  rwa [Ends, hr] at h

theorem ends_of_resetOf {s r t : State} (hr : r.resets = s.resets) (h : ResetOf r t) : Ends s (.next t) :=
  .inl ⟨t, rfl, h.busy, .inr (hr ▸ h.resets)⟩

/-- The CORE's turn ends BUSY, whatever word is pending (R311). -/
theorem step_coreTurn_ends (s : State) (hc : s.coreTurn = true) : Ends s (step s) := by
  rcases step_cases s with ⟨_, i, _, h⟩ | ⟨_, _, _, h⟩ | ⟨hn, _⟩
  · obtain ⟨body, havoc, hx⟩ := exec_next i s
    exact .inl ⟨_, h.trans hx, complete_busy .., .inl (complete_done ..)⟩
  · exact .inl ⟨_, h, complete_busy .., .inl (complete_done ..)⟩
  · simp [hc] at hn

/-- A HOST turn while BUSY = 1 ends BUSY, or brings the completion one turn nearer. -/
theorem hostStep_busy_cases (s : State) (hb : s.busy = true) (hh : s.host ≠ []) :
    Ends s (hostStep s) ∨ ∃ rest t, hostStep s = .next t ∧ RunsOn (s.passTurn rest) t := by
  rcases hostStep_cases s with ⟨h, _⟩ | ⟨rest, _, h⟩ | ⟨_, _, rest, l, _, _, h⟩ | ⟨_, _, v, rest, l, _, _, h⟩ | ⟨_, _, f, _, _, h⟩
  · exact absurd h hh
  · exact .inr ⟨_, _, h, hostRead_runsOn _ _ hb⟩
  · exact .inr ⟨_, _, h, hostRead_runsOn _ _ hb⟩
  · rw [h]
    rcases hostWrite_busy_cases (s.passTurn rest) l v hb with hr | hr
    · exact .inl (ends_of_resetOf (r := s.passTurn rest) rfl hr)
    · exact .inr ⟨rest, _, rfl, hr⟩
  · exact .inl (.inr ⟨f, h⟩)

/-- One step while BUSY = 1 ends BUSY, or lowers a countdown that had not run out. -/
theorem step_busy_cases (s : State) (hb : s.busy = true) :
    Ends s (step s) ∨
      ∃ t, step s = .next t ∧ t.busy = true ∧ t.resets = s.resets ∧ t.countdown + 1 = s.countdown := by
  rcases step_cases s with ⟨hc, _⟩ | ⟨hc, _⟩ | ⟨hc, h⟩
  · exact .inl (step_coreTurn_ends s hc)
  · exact .inl (step_coreTurn_ends s hc)
  · obtain ⟨hn, hh⟩ : s.countdown ≠ 0 ∧ s.host ≠ [] := by simpa [State.coreTurn, hb] using hc
    rw [h]
    refine (hostStep_busy_cases s hb hh).imp_right ?_
    rintro ⟨rest, t, h, hrun⟩
    exact ⟨t, h, hrun.busy, hrun.resets, by rw [hrun.countdown, State.passTurn_countdown]; omega⟩

theorem run_one (M : Host.Core) (s : M.State) : M.run 1 s = M.step s := by
  rw [Host.Core.run]
  cases M.step s <;> rfl

theorem run_succ_of_next (M : Host.Core) (k : Nat) {s t : M.State} (h : M.step s = .next t) :
    M.run (k + 1) s = M.run k t := by
  rw [Host.Core.run, h]

/-- BUSY ends within the countdown and one step more: by induction on the countdown. -/
theorem run_ends (n : Nat) (s : State) (hb : s.busy = true) (hn : s.countdown = n) :
    ∃ k, k ≤ n + 1 ∧ Ends s (Sys2Proof.core.run k s) := by
  induction n generalizing s with
  | zero =>
    rcases step_busy_cases s hb with h | ⟨t, _, _, _, hc⟩
    · exact ⟨1, by omega, (run_one Sys2Proof.core s).symm ▸ h⟩
    · omega
  | succ n ih =>
    rcases step_busy_cases s hb with h | ⟨t, hs, htb, hr, hc⟩
    · exact ⟨1, by omega, (run_one Sys2Proof.core s).symm ▸ h⟩
    · obtain ⟨k, hk, hend⟩ := ih t htb (by omega)
      exact ⟨k + 1, by omega, (run_succ_of_next Sys2Proof.core k hs).symm ▸ hend.of_resets_eq hr⟩

/-- Settles O23: each step while BUSY = 1 ends BUSY or lowers the countdown, by induction on the countdown. -/
theorem pendingCommandCompletes : Obligations.PendingCommandCompletes :=
  fun s hb => run_ends s.countdown s hb rfl

/-! ### What READBACK = 0 hides -/

/-- The state with other key registers and other key-derived tables: the second state of O60. -/
def withKeyMaterial (s : State) (key : Vector Word 8) (subkey : Vector Word 40) (sword : Quad) (sbox : Tables) : State :=
  { s with key := key, ctx := { s.ctx with subkey := subkey, sword := sword, sbox := sbox } }

/-- With READBACK = 0 the windows of the key tables read 0 (R9, R103). -/
theorem valueAt_keyTable_of_readback_off (s : State) (l : Loc) (hrb : s.params.readback = false)
    (hl : l.isKeyTable = true) : s.valueAt l = 0 := by
  cases l with
  | subkey | sword | sbox => simp [State.valueAt, State.keyGate, hrb]
  | _ => cases hl

section
variable (s : State) (key : Vector Word 8) (subkey : Vector Word 40) (sword : Quad) (sbox : Tables) (l : Loc)

/-- No location outside the key tables shows key material: the key registers read 0 (R44). -/
theorem valueAt_withKeyMaterial_of_not_keyTable (hl : l.isKeyTable = false) :
    (withKeyMaterial s key subkey sword sbox).valueAt l = s.valueAt l := by
  cases l with
  | subkey | sword | sbox => cases hl
  | _ => rfl

theorem valueAt_withKeyMaterial (hrb : s.params.readback = false) :
    (withKeyMaterial s key subkey sword sbox).valueAt l = s.valueAt l := by
  cases hl : l.isKeyTable with
  | true =>
    exact (valueAt_keyTable_of_readback_off (withKeyMaterial s key subkey sword sbox) l hrb hl).trans
      (valueAt_keyTable_of_readback_off s l hrb hl).symm
  | false => exact valueAt_withKeyMaterial_of_not_keyTable s key subkey sword sbox l hl

/-- Which reads are free depends on the pending word, BUSY, MDS_VALID and the parameters only (R368). -/
theorem readsFree_withKeyMaterial : (withKeyMaterial s key subkey sword sbox).readsFree l = s.readsFree l := rfl

theorem freeAt_withKeyMaterial : (withKeyMaterial s key subkey sword sbox).freeAt l = s.freeAt l := rfl

end

/-- Settles O60: a read is free in both states or in neither, with the same free word, and the value is the same. -/
theorem readbackOffHidesKeyMaterial : Obligations.ReadbackOffHidesKeyMaterial := by
  intro s key subkey sword sbox l hrb
  change ((withKeyMaterial s key subkey sword sbox).hostRead l).reads = (s.hostRead l).reads
  rw [hostRead_eq, hostRead_eq, readsFree_withKeyMaterial, freeAt_withKeyMaterial, valueAt_withKeyMaterial (hrb := hrb)]
  rfl

end Sys2Proof.Proofs.Scope
end

section
/-! The state family (spec/10_state.md): the key registers (R44), the reserved bits (R55), and what may change the key context
(R49) and the MDS tables (R50). -/

open Sys2Proof Sys2Proof.Machine

namespace Sys2Proof.Proofs.CoreState

/-! ### Registers -/

theorem storeAt_key_getElem (s : State) (i j : Fin 8) (v : Word) :
    (s.storeAt (.key i) v).key[j] = if j = i then v else s.key[j] := by
  simp [State.storeAt, Vector.getElem_set, Fin.ext_iff, eq_comm]

/-- Settles O18: the store writes one entry of the key registers, and their read value does not depend on the state. -/
theorem keyRegistersAreWriteOnly : Obligations.KeyRegistersAreWriteOnly :=
  fun s i v => ⟨fun j => storeAt_key_getElem s i j v, fun _ => rfl, rfl⟩

/-- A field placed below bit `k` leaves the bits from `k` on 0. -/
theorem extractLsb'_place_of_le (n : Nat) (b : BitVec n) (lo k m : Nat) (h : lo + n ≤ k) :
    (place n b lo).extractLsb' k m = 0 := by
  ext i hi
  simp [place, BitVec.getLsbD_of_ge b (k + i - lo) (by omega)]

/-- The same for a flag. -/
theorem extractLsb'_flagAt_of_lt (b : Bool) (lo k m : Nat) (h : lo < k) : (flagAt b lo).extractLsb' k m = 0 :=
  extractLsb'_place_of_le 1 _ lo k m h

theorem ctrlWord_reserved (s : State) : (ctrlWord s).extractLsb' 3 29 = 0 :=
  extractLsb'_flagAt_of_lt s.irqen 1 3 29 (by decide)

theorem statusWord_reserved (s : State) : (statusWord s).extractLsb' 13 19 = 0 := by
  simp [statusWord, BitVec.extractLsb'_or, extractLsb'_flagAt_of_lt, extractLsb'_place_of_le]

theorem capsWord_reserved (p : Params) : (capsWord p).extractLsb' 18 14 = 0 := by
  simp [capsWord, BitVec.extractLsb'_or, extractLsb'_flagAt_of_lt, extractLsb'_place_of_le]

/-- Settles O22: every field of the three words is placed below their reserved bits. -/
theorem reservedBitsReadZero : Obligations.ReservedBitsReadZero :=
  fun s => ⟨ctrlWord_reserved s, statusWord_reserved s, capsWord_reserved s.params⟩

/-! ### Keeping the key context and the MDS tables -/

/-- The MDS tables of `t` are those of `s`, where `s` has any (R50). -/
def MdsKept (s t : State) : Prop := s.mdsValid = true → t.mdsValid = true ∧ t.mds = s.mds

/-- The key context of `t` is that of `s`, and so are its MDS tables where `s` has any. -/
structure TablesKept (s t : State) : Prop where
  ctx : t.ctx = s.ctx
  mds : MdsKept s t

/-- `t` has one more reset than `s`, no key context and no MDS tables (R361). -/
structure TablesCleared (s t : State) : Prop where
  resets : t.resets = s.resets + 1
  ctx : t.ctx = KeyCtx.empty
  mdsValid : t.mdsValid = false

theorem TablesKept.of_eq {s t : State} (hc : t.ctx = s.ctx) (hv : t.mdsValid = s.mdsValid) (hm : t.mds = s.mds) :
    TablesKept s t :=
  ⟨hc, fun h => ⟨hv.trans h, hm⟩⟩

theorem TablesKept.refl (s : State) : TablesKept s s := .of_eq rfl rfl rfl

theorem MdsKept.trans {s t u : State} (h : MdsKept s t) (h' : MdsKept t u) : MdsKept s u := fun hv =>
  have ⟨hvt, hmt⟩ := h hv
  have ⟨hvu, hmu⟩ := h' hvt
  ⟨hvu, hmu.trans hmt⟩

theorem TablesKept.trans {s t u : State} (h : TablesKept s t) (h' : TablesKept t u) : TablesKept s u :=
  ⟨h'.ctx.trans h.ctx, h.mds.trans h'.mds⟩

/-- ensureMDS builds the tables only where there are none (R156). -/
theorem ensureMds_tablesKept (s : State) : TablesKept s s.ensureMds :=
  ⟨by simp, fun h => by simp [h]⟩

theorem hfuncBody_tablesKept (k : Nat) (s : State) : TablesKept s (hfuncBody k s) :=
  (ensureMds_tablesKept s).trans (.of_eq rfl rfl rfl)

/-! ### Completions -/

theorem complete_mdsKept {s : State} {body : Except ErrCode State} {havoc : State} (hh : MdsKept s havoc)
    (hb : ∀ t, body = .ok t → MdsKept s t) : MdsKept s (s.complete body havoc) := fun hv =>
  ⟨complete_keeps State.mdsValid true s body havoc (fun _ _ => rfl) (fun _ => rfl) hv (hh hv).1 fun t ht => (hb t ht hv).1,
    complete_keeps State.mds s.mds s body havoc (fun _ _ => rfl) (fun _ => rfl) rfl (hh hv).2 fun t ht => (hb t ht hv).2⟩

/-- A completion keeps the tables when the pseudocode's success and the unconstrained write set do. -/
theorem complete_tablesKept {s : State} {body : Except ErrCode State} {havoc : State} (hh : TablesKept s havoc)
    (hb : ∀ t, body = .ok t → TablesKept s t) : TablesKept s (s.complete body havoc) where
  ctx := complete_keeps State.ctx s.ctx s body havoc (fun _ _ => rfl) (fun _ => rfl) rfl hh.ctx fun t ht => (hb t ht).ctx
  mds := complete_mdsKept hh.mds fun t ht => (hb t ht).mds

theorem complete_ok_tablesKept {s t havoc : State} (hh : TablesKept s havoc) (ht : TablesKept s t) :
    TablesKept s (s.complete (.ok t) havoc) :=
  complete_tablesKept hh fun _ h => Except.ok.inj h ▸ ht

theorem complete_error_tablesKept (s : State) (c : ErrCode) : TablesKept s (s.complete (.error c) s) :=
  complete_tablesKept (.refl s) fun _ h => nomatch h

theorem complete_withKey_tablesKept {s t havoc : State} (hh : TablesKept s havoc) (ht : TablesKept s t) :
    TablesKept s (s.complete (withKey s (.ok t)) havoc) :=
  complete_tablesKept hh fun _ h => Except.ok.inj (withKey_ok _ _ _ h).2 ▸ ht

/-- The outcome of a message command: if it succeeds, it writes an output to OUTBUF and OUTLEN (R268). -/
def Outputs (s : State) (body : Except ErrCode State) : Prop := ∀ t, body = .ok t → ∃ out, t = putOutput s out

theorem padBody_outputs (s : State) : Outputs s (padBody s) := by
  intro t h
  obtain ⟨_, h⟩ := withLength_ok _ _ _ h
  split at h <;> cases h
  exact ⟨_, rfl⟩

theorem unpadBody_outputs (s : State) : Outputs s (unpadBody s) := by
  intro t h
  obtain ⟨_, h⟩ := withLength_ok _ _ _ h
  split at h <;> cases h
  exact ⟨_, rfl⟩

theorem msgencBody_outputs (s : State) : Outputs s (msgencBody s) := by
  intro t h
  obtain ⟨_, h⟩ := withKey_ok _ _ _ h
  obtain ⟨_, h⟩ := withLength_ok _ _ _ h
  split at h <;> cases h
  exact ⟨_, rfl⟩

theorem msgdecBody_outputs (s : State) : Outputs s (msgdecBody s) := by
  intro t h
  obtain ⟨_, h⟩ := withKey_ok _ _ _ h
  obtain ⟨_, h⟩ := withLength_ok _ _ _ h
  split at h
  · split at h <;> cases h
    exact ⟨_, rfl⟩
  · cases h

theorem complete_outputs_tablesKept {s : State} {body : Except ErrCode State} (hb : Outputs s body) :
    TablesKept s (s.complete body s.havocOut) :=
  complete_tablesKept (.of_eq rfl rfl rfl) fun t ht => by
    obtain ⟨out, rfl⟩ := hb t ht
    exact .of_eq rfl rfl rfl

theorem ivgen_tablesKept (s : State) : TablesKept s (s.complete (ivgenBody s) (ivgenHavoc s)) := by
  unfold ivgenBody ivgenHavoc
  split
  · exact complete_ok_tablesKept (.of_eq rfl rfl rfl) (.of_eq rfl rfl rfl)
  · exact complete_error_tablesKept s .illegalCmd

theorem illegalCommand_tablesKept (s : State) : TablesKept s s.illegalCommand :=
  complete_error_tablesKept s .illegalCmd

/-! ### Commands -/

/-- No command but KEYSCHED and KEYCLR writes the key context or replaces the MDS tables. -/
theorem exec_tablesKept (i : Instr) (s : State) (hs : i ≠ .keysched) (hc : i ≠ .keyclr) :
    ∃ t, exec i s = .next t ∧ TablesKept s t := by
  cases i with
  | nop | gfmulRs | gfmulMds | rsred | chaininit =>
    exact ⟨_, rfl, complete_ok_tablesKept (.of_eq rfl rfl rfl) (.of_eq rfl rfl rfl)⟩
  | mdsgen => exact ⟨_, rfl, complete_ok_tablesKept (ensureMds_tablesKept s) (ensureMds_tablesKept s)⟩
  | hfuncK2 | hfuncK3 | hfuncK4 =>
    exact ⟨_, rfl, complete_ok_tablesKept ((ensureMds_tablesKept s).trans (.of_eq rfl rfl rfl)) (hfuncBody_tablesKept _ s)⟩
  | gfunc | encblk | decblk | cbcenc | cbcdec =>
    exact ⟨_, rfl, complete_withKey_tablesKept (.of_eq rfl rfl rfl) (.of_eq rfl rfl rfl)⟩
  | ivgen => exact ⟨_, rfl, ivgen_tablesKept s⟩
  | pad => exact ⟨_, rfl, complete_outputs_tablesKept (padBody_outputs s)⟩
  | unpad => exact ⟨_, rfl, complete_outputs_tablesKept (unpadBody_outputs s)⟩
  | msgenc => exact ⟨_, rfl, complete_outputs_tablesKept (msgencBody_outputs s)⟩
  | msgdec => exact ⟨_, rfl, complete_outputs_tablesKept (msgdecBody_outputs s)⟩
  | keysched => exact absurd rfl hs
  | keyclr => exact absurd rfl hc

theorem keyschedBody_mdsKept (s t : State) (h : keyschedBody s = .ok t) : MdsKept s t := by
  unfold keyschedBody at h
  split at h <;> cases h
  exact (ensureMds_tablesKept s).mds

theorem keyschedTaintedMds_mdsKept (s : State) : MdsKept s (keyschedTaintedMds s) := by
  unfold keyschedTaintedMds
  split
  · exact (ensureMds_tablesKept s).mds
  · exact (TablesKept.refl s).mds

/-- No command replaces MDS tables that are built. -/
theorem exec_mdsKept (i : Instr) (s : State) : ∃ t, exec i s = .next t ∧ MdsKept s t := by
  by_cases hs : i = .keysched
  · subst hs
    exact ⟨_, rfl, complete_mdsKept (keyschedTaintedMds_mdsKept s) (keyschedBody_mdsKept s)⟩
  by_cases hc : i = .keyclr
  · subst hc
    exact ⟨_, rfl, complete_mdsKept (fun h => ⟨h, rfl⟩) fun t ht h => Except.ok.inj ht ▸ ⟨h, rfl⟩⟩
  obtain ⟨t, ht, hk⟩ := exec_tablesKept i s hs hc
  exact ⟨t, ht, hk.mds⟩

/-! ### The HOST -/

theorem hostRead_tablesKept (s : State) (l : Loc) : TablesKept s (s.hostRead l) := by
  rw [hostRead_eq]
  exact .of_eq rfl rfl rfl

theorem markTaint_tablesKept (s : State) : TablesKept s s.markTaint := .of_eq (by simp) (by simp) (by simp)

theorem storeAt_tablesKept (s : State) (l : Loc) (v : Word) : TablesKept s (s.storeAt l v) := by
  cases l <;> exact .of_eq rfl rfl rfl

theorem writeCmd_tablesKept (s : State) (v : Word) : TablesKept s (s.writeCmd v) := by
  unfold State.writeCmd
  split <;> exact .of_eq rfl rfl rfl

theorem writeCtrl_tables (s : State) (v : Word) :
    TablesKept s (s.writeCtrl v) ∨ TablesCleared s (s.writeCtrl v) := by
  unfold State.writeCtrl
  split
  · exact .inr ⟨rfl, rfl, rfl⟩
  · split <;> exact .inl (.of_eq rfl rfl rfl)

theorem hostWrite_tables (s : State) (l : Loc) (v : Word) :
    TablesKept s (s.hostWrite l v) ∨ TablesCleared s (s.hostWrite l v) := by
  rcases hostWrite_cases s l v with ⟨_, h⟩ | ⟨_, h⟩ | ⟨_, h⟩ | ⟨_, _, _, h⟩ <;> rw [h]
  · exact .inl (writeCmd_tablesKept s v)
  · exact writeCtrl_tables s v
  · exact .inl (markTaint_tablesKept s)
  · exact .inl ((storeAt_tablesKept s l v).trans (markTaint_tablesKept _))

/-- The HOST's turn keeps the key context and the MDS tables, but for a soft reset. -/
theorem hostStep_tables {s t : State} (h : hostStep s = .next t) : TablesKept s t ∨ TablesCleared s t := by
  have hpass (rest : List HostOp) : TablesKept s (s.passTurn rest) := .of_eq rfl rfl rfl
  rcases hostStep_cases s with
    ⟨_, e⟩ | ⟨_, _, e⟩ | ⟨_, _, _, _, _, _, e⟩ | ⟨_, _, v, rest, l, _, _, e⟩ | ⟨_, _, _, _, _, e⟩ <;>
    cases e.symm.trans h
  · exact .inl (.refl s)
  · exact .inl ((hpass _).trans (hostRead_tablesKept _ _))
  · exact .inl ((hpass _).trans (hostRead_tablesKept _ _))
  · exact (hostWrite_tables (s.passTurn rest) l v).imp (hpass rest).trans fun hr => ⟨hr.resets, hr.ctx, hr.mdsValid⟩

/-! ### Steps -/

/-- Settles O58: every completion but those of KEYSCHED and KEYCLR keeps the key context, and so does every HOST access but a
soft reset. -/
theorem keyContextChangesOnlyByKeyCommands : Obligations.KeyContextChangesOnlyByKeyCommands := by
  intro s t hst hne
  rcases step_cases s with ⟨hcore, i, hd, h⟩ | ⟨_, _, _, h⟩ | ⟨_, h⟩ <;> rw [h] at hst
  · by_cases hs : i = .keysched
    · exact .inl ⟨hcore, .inl (hs ▸ hd)⟩
    by_cases hc : i = .keyclr
    · exact .inl ⟨hcore, .inr (hc ▸ hd)⟩
    obtain ⟨u, hu, hk⟩ := exec_tablesKept i s hs hc
    cases hu.symm.trans hst
    exact absurd hk.ctx hne
  · cases hst
    exact absurd (illegalCommand_tablesKept s).ctx hne
  · rcases hostStep_tables hst with hk | hr
    · exact absurd hk.ctx hne
    · exact .inr ⟨hr.resets, hr.ctx⟩

/-- Settles O59: completions build MDS tables only where there are none, and the HOST changes them by a soft reset only. -/
theorem mdsTablesStayOnceValid : Obligations.MdsTablesStayOnceValid := by
  intro s t hv hst
  rcases step_cases s with ⟨_, i, _, h⟩ | ⟨_, _, _, h⟩ | ⟨_, h⟩ <;> rw [h] at hst
  · obtain ⟨u, hu, hk⟩ := exec_mdsKept i s
    cases hu.symm.trans hst
    exact .inl (hk hv)
  · cases hst
    exact .inl ((illegalCommand_tablesKept s).mds hv)
  · exact (hostStep_tables hst).imp (fun hk => hk.mds hv) fun hr => ⟨hr.resets, hr.mdsValid⟩

end Sys2Proof.Proofs.CoreState
end

section
/-! The memory family (spec/20_memory.md): the map of the window and its bus errors (R81 to R88), what a store and a write to a
read-only location leave (R92, R95), and the read gates (R103). -/

open Sys2Proof Sys2Proof.Machine Sys2Proof.Cert

namespace Sys2Proof.Proofs.HostBus

/-! ### The map -/

/-- A buffer fills at most the 16384 bytes between two bases of the map (R7, R84). -/
theorem bufBytes_le (p : Params) : p.bufBytes ≤ 0x4000 := by
  have := p.extraBlocks.isLt
  unfold Params.bufBytes Params.bufBlocks
  omega

theorem locOffset_mod_four (l : Loc) : locOffset l % 4 = 0 := by
  cases l <;> simp only [locOffset, inbufBase, outbufBase] <;> omega

section
variable (p : Params) {k : Nat}

theorem wordLoc_subkey (i : Fin 40) (hk : locOffset (.subkey i) = 4 * k) : wordLoc p k = some (.subkey i) := by
  simp only [locOffset] at hk
  rw [wordLoc, if_neg (by omega), dif_pos (by omega)]
  simp only [Option.some_inj, Loc.subkey.injEq, Fin.ext_iff]
  omega

theorem wordLoc_sword (i : Fin 4) (hk : locOffset (.sword i) = 4 * k) : wordLoc p k = some (.sword i) := by
  simp only [locOffset] at hk
  rw [wordLoc, if_neg (by omega), dif_neg (by omega), dif_pos (by omega)]
  simp only [Option.some_inj, Loc.sword.injEq, Fin.ext_iff]
  omega

theorem wordLoc_sbox (j : Fin 4) (x : Fin 256) (hk : locOffset (.sbox j x) = 4 * k) :
    wordLoc p k = some (.sbox j x) := by
  simp only [locOffset] at hk
  rw [wordLoc, if_neg (by omega), dif_neg (by omega), dif_neg (by omega), dif_pos (by omega)]
  simp only [Option.some_inj, Loc.sbox.injEq, Fin.ext_iff]
  omega

theorem wordLoc_mds (j : Fin 4) (x : Fin 256) (hk : locOffset (.mds j x) = 4 * k) : wordLoc p k = some (.mds j x) := by
  simp only [locOffset] at hk
  rw [wordLoc, if_neg (by omega), dif_neg (by omega), dif_neg (by omega), dif_neg (by omega), dif_pos (by omega)]
  simp only [Option.some_inj, Loc.mds.injEq, Fin.ext_iff]
  omega

theorem wordLoc_inbuf (m : Nat) (h : 4 * m < p.bufBytes) (hk : locOffset (.inbuf m) = 4 * k) :
    wordLoc p k = some (.inbuf m) := by
  obtain rfl : k = 0x1000 + m := by simp only [locOffset, inbufBase] at hk; omega
  rw [wordLoc, if_neg (by omega), dif_neg (by omega), dif_neg (by omega), dif_neg (by omega), dif_neg (by omega),
    if_pos (by omega), Nat.add_sub_cancel_left]

theorem wordLoc_outbuf (m : Nat) (h : 4 * m < p.bufBytes) (hk : locOffset (.outbuf m) = 4 * k) :
    wordLoc p k = some (.outbuf m) := by
  obtain rfl : k = 0x2000 + m := by simp only [locOffset, outbufBase] at hk; omega
  have := bufBytes_le p
  rw [wordLoc, if_neg (by omega), dif_neg (by omega), dif_neg (by omega), dif_neg (by omega), dif_neg (by omega),
    if_neg (by omega), if_pos (by omega), Nat.add_sub_cancel_left]

end

/-- The map names existing locations only: the register region has no buffer word, and each buffer window ends at BUF_BYTES. -/
theorem mapped_of_wordLoc {p : Params} {k : Nat} {l : Loc} (h : wordLoc p k = some l) : l.mapped p := by
  unfold wordLoc at h
  split at h
  · cases l with
    | inbuf m | outbuf m => unfold regLoc at h; split at h <;> cases h
    | _ => trivial
  · split_ifs at h with _ _ _ _ hin hout <;> cases h
    exacts [trivial, trivial, trivial, trivial, hin.2, hout.2]

/-- The map names every existing location, at its own offset. -/
theorem wordLoc_of_mapped {p : Params} {k : Nat} {l : Loc} (h : l.mapped p) (hk : locOffset l = 4 * k) :
    wordLoc p k = some l := by
  cases l with
  | subkey i => exact wordLoc_subkey p i hk
  | sword i => exact wordLoc_sword p i hk
  | sbox j x => exact wordLoc_sbox p j x hk
  | mds j x => exact wordLoc_mds p j x hk
  | inbuf m => exact wordLoc_inbuf p m h hk
  | outbuf m => exact wordLoc_outbuf p m h hk
  | hl i | key i | iv i | chain i | din i | dout i =>
    obtain rfl : k = locOffset _ / 4 := by rw [hk]; omega
    fin_cases i <;> rfl
  | _ =>
    obtain rfl : k = locOffset _ / 4 := by rw [hk]; omega
    rfl

/-- A HOST access reaches a location exactly when it is 4 bytes wide, at the offset of that location, and the location exists. -/
theorem busLocate_ok_iff (p : Params) (width : Nat) (offset : BitVec 16) (l : Loc) :
    busLocate p width offset = .ok l ↔ width = 4 ∧ offset.toNat = locOffset l ∧ l.mapped p := by
  rw [busLocate_ok]
  constructor
  · rintro ⟨hw, hmod, hk⟩
    have := locOffset_of_wordLoc p _ l hk
    exact ⟨hw, by omega, mapped_of_wordLoc hk⟩
  · rintro ⟨hw, ho, hl⟩
    have := locOffset_mod_four l
    exact ⟨hw, by omega, wordLoc_of_mapped hl (by omega)⟩

/-- Settles O11: the map and the offsets of the locations are inverse to each other. -/
theorem busMapIsExact : Obligations.BusMapIsExact := by
  intro p offset l
  simp [busLocate_ok_iff]

/-! ### Bus errors -/

/-- An ill-formed access of the HOST ends in its bus error (R82). -/
theorem hostStep_fault_of_not_wf {s : State} {op : HostOp} {rest : List HostOp} (hh : s.host = op :: rest)
    (hw : op.wf s.params = false) : ∃ f, hostStep s = .fault f := by
  rcases hostStep_cases s with ⟨h, _⟩ | ⟨_, h, _⟩ | ⟨_, _, _, _, h, hb, _⟩ | ⟨_, _, _, _, _, h, hb, _⟩ | ⟨_, _, f, _, _, h⟩
  · cases hh.symm.trans h
  · cases hh.symm.trans h
    cases hw
  · cases hh.symm.trans h
    rw [HostOp.wf, hb] at hw
    cases hw
  · cases hh.symm.trans h
    rw [HostOp.wf, hb] at hw
    cases hw
  · exact ⟨f, h⟩

theorem step_eq_hostStep {s : State} (hc : s.coreTurn = false) : step s = hostStep s := by
  rw [step, hc]
  rfl

/-- No location answers an access of another width, at an offset that is not aligned, or at an offset of no location. -/
theorem busLocate_isOk_eq_false {p : Params} {width : Nat} {offset : BitVec 16}
    (h : width ≠ 4 ∨ offset.toNat % 4 ≠ 0 ∨ ∀ l : Loc, l.mapped p → locOffset l ≠ offset.toNat) :
    (busLocate p width offset).isOk = false := by
  cases hb : busLocate p width offset with
  | error f => rfl
  | ok l =>
    obtain ⟨hw, ho, hl⟩ := (busLocate_ok_iff p width offset l).mp hb
    have hmod := locOffset_mod_four l
    rcases h with h | h | h
    · exact absurd hw h
    · omega
    · exact absurd ho.symm (h l hl)

/-- Settles O12: such an access is ill-formed, and the HOST's turn is its bus error. -/
theorem badAccessFaults : Obligations.BadAccessFaults := by
  rintro s rest width offset op hop ⟨hh, hc⟩ hbad
  rw [step_eq_hostStep hc]
  refine hostStep_fault_of_not_wf hh ?_
  rcases hop with rfl | ⟨v, rfl⟩ <;> exact busLocate_isOk_eq_false hbad

/-! ### Read-only locations -/

/-- What the HOST's write does in a step. -/
theorem step_write {s : State} {rest : List HostOp} {width : Nat} {offset : BitVec 16} {v : Word} {l : Loc}
    (ht : hostTurn s (.write width offset v) rest) (hb : busLocate s.params width offset = .ok l) :
    step s = .next ((s.passTurn rest).hostWrite l v) := by
  obtain ⟨hh, hc⟩ := ht
  rw [step_eq_hostStep hc, hostStep, hh]
  simp only [hb]

/-- A write to a read-only location stores nothing (R92) and can only set TAINT (R367). -/
theorem hostWrite_readOnly (s : State) (l : Loc) (v : Word) (hl : l.readOnly = true) :
    s.hostWrite l v = { s with taint := s.busy || s.taint } := by
  rw [← markTaint_eq]
  rcases hostWrite_cases s l v with ⟨rfl, _⟩ | ⟨rfl, _⟩ | ⟨_, h⟩ | ⟨_, _, hn, _⟩
  · cases hl
  · cases hl
  · exact h
  · simp [hl] at hn

/-- CTRL has three defined bits (R35, R55): SRST, IRQEN and CLR. -/
theorem writeCtrl_congr (s : State) {v v' : Word} (h : v.extractLsb' 0 3 = v'.extractLsb' 0 3) :
    s.writeCtrl v = s.writeCtrl v' := by
  have bit (i : Nat) (hi : i < 3) : v.getLsbD i = v'.getLsbD i := by
    simpa [hi] using congrArg (·.getLsbD i) h
  simp only [State.writeCtrl, bit 0 (by decide), bit 1 (by decide), bit 2 (by decide)]

/-- Settles O15: of the core only TAINT can change, and CTRL's write looks at three bits. -/
theorem readOnlyWritesAreIgnored : Obligations.ReadOnlyWritesAreIgnored := by
  refine ⟨fun s rest offset v l ht hb hl => ?_, fun s _ _ => writeCtrl_congr s⟩
  rw [step_write ht hb, hostWrite_readOnly _ l v hl]
  constructor <;> intro hbusy <;> simp [State.passTurn, hbusy]

/-! ### Stores -/

theorem byteAt_storeBytes_of_not_mem (s : State) (base : Nat) (bs : List Byte) (a : Nat)
    (h : a < base ∨ base + bs.length ≤ a) : (s.storeBytes base bs).byteAt a = s.byteAt a := by
  rw [byteAt_storeBytes, if_neg (by omega)]

/-- A stored buffer word reads back (R84). -/
theorem wordAt_storeBytes_same (s : State) (a : Nat) (v : Word) : (s.storeBytes a (wordBytes v)).wordAt a = v := by
  simp [State.wordAt, byteAt_storeBytes, wordBytes]

/-- A store elsewhere keeps a buffer word. -/
theorem wordAt_storeBytes_of_disjoint (s : State) (base : Nat) (bs : List Byte) (a : Nat)
    (h : a + 4 ≤ base ∨ base + bs.length ≤ a) : (s.storeBytes base bs).wordAt a = s.wordAt a := by
  simp (disch := omega) only [State.wordAt, byteAt_storeBytes_of_not_mem]

theorem valueAt_storeAt_same (s : State) (l : Loc) (v : Word) (hr : l.readOnly = false) (hcmd : l ≠ .cmd)
    (hctrl : l ≠ .ctrl) (hkey : ∀ i, l ≠ .key i) : (s.storeAt l v).valueAt l = v := by
  cases l with
  | opa | opb | keylen | msglen => rfl
  | hl i | iv i | chain i | din i => exact Quad.get_set_same _ i v
  | inbuf m => exact wordAt_storeBytes_same s _ v
  | cmd => exact absurd rfl hcmd
  | ctrl => exact absurd rfl hctrl
  | key i => exact absurd rfl (hkey i)
  | _ => cases hr

/-- A store shows at no other existing location: each register group is a field of its own, and the words of the buffer windows
do not overlap (R84). -/
theorem valueAt_storeAt_of_ne (s : State) {l l' : Loc} (v : Word) (hl : l.mapped s.params) (hl' : l'.mapped s.params)
    (hne : l' ≠ l) : (s.storeAt l v).valueAt l' = s.valueAt l' := by
  cases l with
  | opa => cases l' with
    | opa => exact absurd rfl hne
    | _ => rfl
  | opb => cases l' with
    | opb => exact absurd rfl hne
    | _ => rfl
  | keylen => cases l' with
    | keylen => exact absurd rfl hne
    | _ => rfl
  | msglen => cases l' with
    | msglen => exact absurd rfl hne
    | _ => rfl
  | hl i => cases l' with
    | hl j => exact Quad.get_set_ne _ i j v fun h => hne (h ▸ rfl)
    | _ => rfl
  | iv i => cases l' with
    | iv j => exact Quad.get_set_ne _ i j v fun h => hne (h ▸ rfl)
    | _ => rfl
  | chain i => cases l' with
    | chain j => exact Quad.get_set_ne _ i j v fun h => hne (h ▸ rfl)
    | _ => rfl
  | din i => cases l' with
    | din j => exact Quad.get_set_ne _ i j v fun h => hne (h ▸ rfl)
    | _ => rfl
  | inbuf m =>
    have hsize := bufBytes_le s.params
    simp only [Loc.mapped] at hl
    cases l' with
    | inbuf j =>
      have : j ≠ m := fun h => hne (h ▸ rfl)
      exact wordAt_storeBytes_of_disjoint s _ _ _ (by simp only [inbufBase, wordBytes_length]; omega)
    | outbuf j =>
      exact wordAt_storeBytes_of_disjoint s _ _ _ (by simp only [inbufBase, outbufBase, wordBytes_length]; omega)
    | _ => rfl
  | _ => cases l' <;> rfl

/-- Settles O17: a store writes its own register or its own four bytes of INBUF. -/
theorem storedWordReadsBack : Obligations.StoredWordReadsBack := by
  intro s l v hr hcmd hctrl hkey hl
  refine ⟨valueAt_storeAt_same s l v hr hcmd hctrl hkey, fun l' hne hl' => valueAt_storeAt_of_ne s v hl hl' hne, ?_⟩
  cases l with
  | key i => exact absurd rfl (hkey i)
  | _ => exact ⟨rfl, rfl, rfl, rfl, rfl⟩

/-! ### Read gates -/

section
variable {s : State} (v : Word)

theorem keyGate_closed (h : s.ctx.valid = false ∨ s.params.readback = false) : s.keyGate v = 0 := by
  rcases h with h | h <;> simp [State.keyGate, h]

theorem keyGate_open (hv : s.ctx.valid = true) (hr : s.params.readback = true) : s.keyGate v = v := by
  simp [State.keyGate, hv, hr]

theorem mdsGate_closed (h : s.mdsValid = false) : s.mdsGate v = 0 := by
  simp [State.mdsGate, h]

theorem mdsGate_open (h : s.mdsValid = true) : s.mdsGate v = v := by
  simp [State.mdsGate, h]

end

/-- Settles O19: every entry of the windows is read through its gate. -/
theorem windowReadsAreGated : Obligations.WindowReadsAreGated := fun _ =>
  ⟨fun h => ⟨fun _ => keyGate_closed _ h, fun _ => keyGate_closed _ h, fun _ _ => keyGate_closed _ h⟩,
    fun hv hr => ⟨fun _ => keyGate_open _ hv hr, fun _ => keyGate_open _ hv hr, fun _ _ => keyGate_open _ hv hr⟩,
    fun h _ _ => mdsGate_closed _ h, fun h _ _ => mdsGate_open _ h⟩

end Sys2Proof.Proofs.HostBus
end

section
/-! The encoding family (spec/30_encoding.md section 3): the decoder answers a command on that command's word of the opcode table
and on no other word (R125, R126). The fields OP, ARG and RSV determine a word, and what decodes to a command has the fields of
the command's encoding. -/

open Sys2Proof Sys2Proof.Machine Sys2Proof.Cert

namespace Sys2Proof.Proofs.Encoding

/-! ### The word of a command -/

/-- The lemmas of Laws/PerInstr.lean as one statement. -/
theorem coding (i : Instr) : Laws.Coding.Statement i := by
  cases i with
  | nop => exact Laws.Coding.nop
  | gfmulRs => exact Laws.Coding.gfmulRs
  | gfmulMds => exact Laws.Coding.gfmulMds
  | mdsgen => exact Laws.Coding.mdsgen
  | rsred => exact Laws.Coding.rsred
  | hfuncK2 => exact Laws.Coding.hfuncK2
  | hfuncK3 => exact Laws.Coding.hfuncK3
  | hfuncK4 => exact Laws.Coding.hfuncK4
  | keysched => exact Laws.Coding.keysched
  | keyclr => exact Laws.Coding.keyclr
  | gfunc => exact Laws.Coding.gfunc
  | encblk => exact Laws.Coding.encblk
  | decblk => exact Laws.Coding.decblk
  | cbcenc => exact Laws.Coding.cbcenc
  | cbcdec => exact Laws.Coding.cbcdec
  | chaininit => exact Laws.Coding.chaininit
  | ivgen => exact Laws.Coding.ivgen
  | pad => exact Laws.Coding.pad
  | unpad => exact Laws.Coding.unpad
  | msgenc => exact Laws.Coding.msgenc
  | msgdec => exact Laws.Coding.msgdec

theorem cmdRsv_encode (i : Instr) : cmdRsv (encode i) = 0 := (coding i).1

theorem decode_encode (p : Params) (i : Instr) :
    decode p (encode i) = if i.wf p then .command i else .illegal .noRng := (coding i).2 p

theorem wf_iff (p : Params) (i : Instr) : i.wf p = true ↔ (i = .ivgen → p.hasRng = true) := by
  cases i <;> simp [Instr.wf]

/-- Row by row, the table pairs each command with its encoding. -/
theorem mem_opcodeTable_iff (w : BitVec 32) (i : Instr) : (w, i) ∈ opcodeTable ↔ w = encode i := by
  cases i <;> simp [opcodeTable, encode]

/-! ### What decodes to a command -/

/-- RSV, ARG and OP are the whole word (R120). -/
theorem eq_of_fields_eq {w v : BitVec 32} (hr : cmdRsv w = cmdRsv v) (ho : cmdOp w = cmdOp v) (ha : cmdArg w = cmdArg v) :
    w = v := by
  have hr := congrArg BitVec.toNat hr
  have ho := congrArg BitVec.toNat ho
  have ha := congrArg BitVec.toNat ha
  simp only [cmdRsv, cmdOp, cmdArg, BitVec.extractLsb'_toNat, Nat.shiftRight_eq_div_pow] at hr ho ha
  apply BitVec.eq_of_toNat_eq
  omega

/-- The pair OP, ARG is that of the command's encoding. -/
def FieldsOf (i : Instr) (op : BitVec 8) (arg : BitVec 4) : Prop := op = cmdOp (encode i) ∧ arg = cmdArg (encode i)

theorem fieldsOf_of_toNat_eq {i : Instr} {op : BitVec 8} {arg : BitVec 4} (ho : op.toNat = (cmdOp (encode i)).toNat)
    (ha : arg.toNat = (cmdArg (encode i)).toNat) : FieldsOf i op arg :=
  ⟨BitVec.eq_of_toNat_eq ho, BitVec.eq_of_toNat_eq ha⟩

section
variable {i j : Instr} {op : BitVec 8} {arg : BitVec 4}

theorem decodeC0_fieldsOf (h : decodeC0 arg j = .command i) (ho : op.toNat = (cmdOp (encode j)).toNat)
    (hj : cmdArg (encode j) = 0) : FieldsOf i op arg := by
  unfold decodeC0 at h
  split at h
  next ha =>
    cases h
    exact ⟨BitVec.eq_of_toNat_eq ho, ha.trans hj.symm⟩
  next => cases h

theorem decodeCP_fieldsOf (h : decodeCP arg = .command i) (ho : op.toNat = 0x01) : FieldsOf i op arg := by
  unfold decodeCP at h
  split at h <;> cases h
  all_goals exact fieldsOf_of_toNat_eq ho ‹_›

theorem decodeCH_fieldsOf (h : decodeCH arg = .command i) (ho : op.toNat = 0x04) : FieldsOf i op arg := by
  unfold decodeCH at h
  split at h <;> cases h
  all_goals exact fieldsOf_of_toNat_eq ho ‹_›

/-- Opcode 1 has format CP and opcode 4 format CH; every other opcode of the map has format C0. -/
theorem decodeOp_fieldsOf (h : decodeOp op arg = .command i) : FieldsOf i op arg := by
  unfold decodeOp at h
  split at h
  case h_2 ho => exact decodeCP_fieldsOf h ho
  case h_5 ho => exact decodeCH_fieldsOf h ho
  case h_19 => cases h
  all_goals exact decodeC0_fieldsOf h ‹_› rfl

end

theorem eq_encode_of_decodeWord {w : BitVec 32} {i : Instr} (h : decodeWord w = .command i) : w = encode i := by
  unfold decodeWord at h
  split at h
  next hr =>
    obtain ⟨ho, ha⟩ := decodeOp_fieldsOf h
    exact eq_of_fields_eq (hr.trans (cmdRsv_encode i).symm) ho ha
  next => cases h

theorem eq_encode_of_decode {p : Params} {w : BitVec 32} {i : Instr} (h : decode p w = .command i) : w = encode i := by
  unfold decode at h
  split at h
  next j hj =>
    split at h <;> cases h
    exact eq_encode_of_decodeWord hj
  next => cases h

theorem decode_eq_command_iff (p : Params) (w : BitVec 32) (i : Instr) :
    decode p w = .command i ↔ w = encode i ∧ i.wf p = true := by
  constructor
  · intro h
    obtain rfl := eq_encode_of_decode h
    refine ⟨rfl, ?_⟩
    by_contra hwf
    rw [decode_encode, if_neg hwf] at h
    cases h
  · rintro ⟨rfl, hwf⟩
    rw [decode_encode, if_pos hwf]

/-- Settles O1: a word decodes to a command exactly when it is the command's encoding, which is its row of the table. -/
theorem decodeAcceptsExactlyTheTable : Obligations.DecodeAcceptsExactlyTheTable := by
  intro p w i
  rw [decode_eq_command_iff, mem_opcodeTable_iff, wf_iff]

/-! ### The rows of the table -/

/-- The 32 bits of a word, read as a row of the opcode table, are decoded as the word. -/
theorem decodeTableWord_toNat (w : BitVec 32) : decodeTableWord 32 w.toNat = (decode Params.default w).instr? := by
  have hw : w.toNat % 2 ^ 32 = w.toNat := Nat.mod_eq_of_lt w.isLt
  rw [decodeTableWord, tableWord, hw, if_pos w.isLt, BitVec.ofNat_toNat, BitVec.setWidth_eq]

/-- Settles O2: a row is a command's encoding, and with HAS_RNG = 1 every encoding decodes. -/
theorem tableRowsEncodeAndDecode : Obligations.TableRowsEncodeAndDecode := by
  refine ⟨rfl, fun ⟨w, i⟩ hr => ?_⟩
  have hd : decode Params.default w = .command i := (decodeAcceptsExactlyTheTable _ w i).mpr ⟨hr, fun _ => rfl⟩
  refine ⟨((mem_opcodeTable_iff w i).mp hr).symm, hd, ?_⟩
  rw [decodeTableWord_toNat, hd, Decoded.instr?]

end Sys2Proof.Proofs.Encoding
end


section
/-! The field family (spec/40_field.md): the laws of the product (R151), the entries of the MDS tables (R154), the RS reduction
(R158), and the completions of GFMUL, MDSGEN and RSRED (R152, R155, R156, R159).

The laws come from one fact: a map that is additive over xor and commutes with the doubling also commutes with the product in its
left factor. -/

open Sys2Proof Sys2Proof.Machine Sys2Proof.Cert

namespace Sys2Proof.Proofs.Field

/-! ### The doubling -/

/-- The doubling is a shift, with the low bits of `P` added where bit 7 is lost (R151). -/
theorem xtime_eq (P : Poly) (t : Byte) : xtime P t = (t <<< 1) ^^^ (if t.getLsbD 7 then P.setWidth 8 else 0) := by
  have hbit : (t.setWidth 9 <<< 1).getLsbD 8 = t.getLsbD 7 := by simp
  have hlow : (t.setWidth 9 <<< 1).setWidth 8 = t <<< 1 := by
    ext i hi
    simp
  rw [xtime, hbit]
  split
  · rw [BitVec.setWidth_xor, hlow]
  · rw [hlow, BitVec.ofNat_eq_ofNat, BitVec.xor_zero]

theorem xtime_of_bit7_clear (P : Poly) (t : Byte) (h : t.getLsbD 7 = false) : xtime P t = t <<< 1 := by
  rw [xtime_eq, h]
  simp

theorem xtime_one (P : Poly) : xtime P 1 = 2 := xtime_of_bit7_clear P 1 rfl

theorem ite_xor (p q : Bool) (v : Byte) :
    (if p ^^ q then v else 0) = (if p then v else 0) ^^^ (if q then v else 0) := by
  cases p <;> cases q <;> simp

theorem xtime_xor (P : Poly) (a b : Byte) : xtime P (a ^^^ b) = xtime P a ^^^ xtime P b := by
  simp only [xtime_eq, BitVec.shiftLeft_xor_distrib, BitVec.getLsbD_xor, ite_xor]
  ac_rfl

/-- `f` is additive over xor and commutes with the doubling. -/
structure FieldLinear (P : Poly) (f : Byte → Byte) : Prop where
  map_xor : ∀ a b, f (a ^^^ b) = f a ^^^ f b
  map_xtime : ∀ a, f (xtime P a) = xtime P (f a)

theorem xtime_fieldLinear (P : Poly) : FieldLinear P (xtime P) := ⟨xtime_xor P, fun _ => rfl⟩

theorem FieldLinear.map_zero {P : Poly} {f : Byte → Byte} (hf : FieldLinear P f) : f 0 = 0 := by
  simpa using hf.map_xor 0 0

/-! ### The product, for every polynomial -/

section
variable (P : Poly) (a b c : Byte)

theorem gfStep_map {f : Byte → Byte} (hf : FieldLinear P f) (pt : Byte × Byte) (i : Nat) :
    gfStep P b (Prod.map f f pt) i = Prod.map f f (gfStep P b pt i) := by
  cases h : b.getLsbD i <;> simp [gfStep, h, hf.map_xor, hf.map_xtime]

theorem map_gfmul {f : Byte → Byte} (hf : FieldLinear P f) : f (gfmul P a b) = gfmul P (f a) b := by
  have h := List.foldl_hom (Prod.map f f) (l := List.range 8) (init := (0, a)) (gfStep_map P b hf)
  rw [Prod.map_apply, hf.map_zero] at h
  exact (congrArg Prod.fst h).symm

theorem gfmul_xtime_left : gfmul P (xtime P a) b = xtime P (gfmul P a b) :=
  (map_gfmul P a b (xtime_fieldLinear P)).symm

theorem gfStep_xor (pt pt' : Byte × Byte) (i : Nat) :
    gfStep P b (pt.1 ^^^ pt'.1, pt.2 ^^^ pt'.2) i =
      ((gfStep P b pt i).1 ^^^ (gfStep P b pt' i).1, (gfStep P b pt i).2 ^^^ (gfStep P b pt' i).2) := by
  cases h : b.getLsbD i <;> simp [gfStep, h, xtime_xor]
  ac_rfl

theorem gfmul_xor_left : gfmul P (a ^^^ b) c = gfmul P a c ^^^ gfmul P b c := by
  have h := List.foldl_hom₂ (List.range 8) (fun x y : Byte × Byte => (x.1 ^^^ y.1, x.2 ^^^ y.2)) (gfStep P c) (gfStep P c)
    (gfStep P c) (0, a) (0, b) fun pt pt' i => (gfStep_xor P c pt pt' i).symm
  simp only [BitVec.xor_self] at h
  exact congrArg Prod.fst h

/-- To multiply by a fixed byte is linear. -/
theorem gfmul_fieldLinear : FieldLinear P (gfmul P · b) :=
  ⟨fun x y => gfmul_xor_left P x y b, fun x => gfmul_xtime_left P x b⟩

theorem gfmul_zero_left : gfmul P 0 b = 0 := (gfmul_fieldLinear P b).map_zero

/-- The low `n` bits of a byte. -/
def lowBits (n : Nat) : Byte := (b.setWidth n).setWidth 8

theorem lowBits_succ (n : Nat) :
    lowBits b (n + 1) = if b.getLsbD n then lowBits b n ^^^ BitVec.twoPow 8 n else lowBits b n := by
  ext i hi
  obtain h | rfl | h := Nat.lt_trichotomy i n
  · split <;> simp [lowBits, h, Nat.lt_succ_of_lt h, h.ne]
  · cases hb : b[i] <;> simp [lowBits, hi, hb]
  · have hlt : ¬ i < n + 1 := by omega
    split <;> simp [lowBits, hlt, h.not_gt, h.ne']

theorem xtime_twoPow (n : Nat) (hn : n < 7) : xtime P (BitVec.twoPow 8 n) = BitVec.twoPow 8 (n + 1) := by
  have hbit : (BitVec.twoPow 8 n).getLsbD 7 = false := by
    rw [BitVec.getLsbD_twoPow]
    simp [hn.ne]
  rw [xtime_of_bit7_clear P _ hbit, BitVec.shiftLeft_eq_mul_twoPow, BitVec.twoPow_mul_twoPow_eq]

/-- Seven doublings of 1 lose no bit, so the loop adds up the bits of `b`. -/
theorem foldl_gfStep_one (n : Nat) (hn : n ≤ 7) :
    (List.range n).foldl (gfStep P b) (0, 1) = (lowBits b n, BitVec.twoPow 8 n) := by
  induction n with
  | zero => simp [lowBits, BitVec.twoPow, BitVec.of_length_zero]
  | succ n ih =>
    rw [List.range_succ, List.foldl_append, ih (by omega), List.foldl_cons, List.foldl_nil, gfStep, ← lowBits_succ,
      xtime_twoPow P n (by omega)]

theorem gfmul_one_left : gfmul P 1 b = b := by
  rw [gfmul, List.range_succ, List.foldl_append, foldl_gfStep_one P b 7 le_rfl, List.foldl_cons, List.foldl_nil, gfStep,
    ← lowBits_succ]
  simp [lowBits]

theorem gfmul_two_left : gfmul P 2 b = xtime P b := by
  rw [← xtime_one P, gfmul_xtime_left, gfmul_one_left]

/-- `b` is 1 times `b`, and to multiply by `a` commutes with the product. -/
theorem gfmul_comm : gfmul P a b = gfmul P b a := by
  have h := map_gfmul P 1 b (gfmul_fieldLinear P a)
  rw [gfmul_one_left, gfmul_one_left] at h
  exact h.symm

theorem gfmul_xor_right : gfmul P a (b ^^^ c) = gfmul P a b ^^^ gfmul P a c := by
  rw [gfmul_comm, gfmul_xor_left, gfmul_comm P b, gfmul_comm P c]

theorem gfmul_assoc : gfmul P (gfmul P a b) c = gfmul P a (gfmul P b c) := by
  rw [gfmul_comm P a b, gfmul_comm P a (gfmul P b c)]
  exact (map_gfmul P b c (gfmul_fieldLinear P a)).symm

/-- A factor of repeated doublings. -/
theorem gfmul_iterate_xtime_left (n : Nat) : gfmul P ((xtime P)^[n] a) b = (xtime P)^[n] (gfmul P a b) :=
  have h : Function.Semiconj (gfmul P · b) (xtime P) (xtime P) := (gfmul_fieldLinear P b).map_xtime
  h.iterate_right n a

end

/-! ### Inverses -/

/-- The powers of 2 have period 255 and none of the maximal divisors of 255 as a period. -/
structure Primitive (P : Poly) : Prop where
  iterate_255 : (xtime P)^[255] 1 = 1
  iterate_15 : (xtime P)^[15] 1 ≠ 1
  iterate_51 : (xtime P)^[51] 1 ≠ 1
  iterate_85 : (xtime P)^[85] 1 ≠ 1

theorem polyRs_primitive : Primitive polyRs := by constructor <;> decide +kernel

theorem polyMds_primitive : Primitive polyMds := by constructor <;> decide +kernel

theorem toNat_mem_Icc {a : Byte} (ha : a ≠ 0) : a.toNat ∈ Finset.Icc 1 255 :=
  Finset.mem_Icc.mpr ⟨Nat.pos_of_ne_zero (BitVec.toNat_ne.mp ha), Nat.le_of_lt_succ a.isLt⟩

section
variable {P : Poly} (hP : Primitive P)
include hP

theorem Primitive.minimalPeriod_eq : Function.minimalPeriod (xtime P) 1 = 255 := by
  have hdvd (n : Nat) : (xtime P)^[n] 1 = 1 ↔ Function.minimalPeriod (xtime P) 1 ∣ n :=
    Function.isPeriodicPt_iff_minimalPeriod_dvd
  have hdiv : ∀ m ∈ Nat.divisors 255, m ∣ 15 ∨ m ∣ 51 ∨ m ∣ 85 ∨ m = 255 := by decide +kernel
  obtain h | h | h | h := hdiv _ (Nat.mem_divisors.mpr ⟨(hdvd 255).mp hP.iterate_255, by decide⟩)
  · exact absurd ((hdvd 15).mpr h) hP.iterate_15
  · exact absurd ((hdvd 51).mpr h) hP.iterate_51
  · exact absurd ((hdvd 85).mpr h) hP.iterate_85
  · exact h

/-- The inverse of `2 ^ n` is `2 ^ (255 - n)`. -/
theorem Primitive.gfmul_iterate_inverse {n : Nat} (hn : n ≤ 255) :
    gfmul P ((xtime P)^[n] 1) ((xtime P)^[255 - n] 1) = 1 := by
  rw [gfmul_iterate_xtime_left, gfmul_one_left, ← Function.iterate_add_apply, Nat.add_sub_cancel' hn, hP.iterate_255]

theorem Primitive.iterate_ne_zero {n : Nat} (hn : n ≤ 255) : (xtime P)^[n] 1 ≠ 0 := by
  intro h
  have hinv := hP.gfmul_iterate_inverse hn
  rw [h, gfmul_zero_left] at hinv
  exact absurd hinv (by decide)

/-- The first 255 powers of 2 differ and are not 0, so they are all the bytes but 0. -/
theorem Primitive.exists_iterate_eq {a : Byte} (ha : a ≠ 0) : ∃ n ≤ 255, (xtime P)^[n] 1 = a := by
  have hmaps : Set.MapsTo (fun n => ((xtime P)^[n] 1).toNat) (Finset.range 255) (Finset.Icc 1 255) := by
    intro n hn
    exact toNat_mem_Icc (hP.iterate_ne_zero (Finset.mem_range.mp hn).le)
  have hinj : Set.InjOn (fun n => ((xtime P)^[n] 1).toNat) (Finset.range 255) := by
    have h := Function.iterate_injOn_Iio_minimalPeriod (f := xtime P) (x := 1)
    rw [hP.minimalPeriod_eq, ← Finset.coe_range] at h
    exact BitVec.toNat_injective.comp_injOn h
  obtain ⟨n, hn, h⟩ := Finset.surjOn_of_injOn_of_card_le _ hmaps hinj (by simp) (toNat_mem_Icc ha)
  exact ⟨n, (Finset.mem_range.mp hn).le, BitVec.eq_of_toNat_eq h⟩

theorem Primitive.exists_inverse {a : Byte} (ha : a ≠ 0) : ∃ d, gfmul P a d = 1 := by
  obtain ⟨n, hn, rfl⟩ := hP.exists_iterate_eq ha
  exact ⟨_, hP.gfmul_iterate_inverse hn⟩

end

theorem primitive_of_mem {P : Poly} (hP : P ∈ [(0x14D : Poly), 0x169]) : Primitive P := by
  simp only [List.mem_cons, List.not_mem_nil, or_false] at hP
  rcases hP with rfl | rfl
  · exact polyRs_primitive
  · exact polyMds_primitive

/-- Settles O47: the ring laws hold for every polynomial, and every byte but 0 is a power of 2, which has an inverse. -/
theorem gfmulLaws : Obligations.GfmulLaws := fun P hP a b c =>
  ⟨gfmul_comm P a b, gfmul_zero_left P b, gfmul_one_left P b, gfmul_xor_right P a b c, gfmul_assoc P a b c,
    (gfmul_two_left P a).trans (xtime_eq P a), (primitive_of_mem hP).exists_inverse⟩

/-! ### The entries of the MDS tables -/

/-- 5B is the sum of 1, 2, 8, 16 and 64. -/
theorem gfmul_5B (P : Poly) (x : Byte) :
    gfmul P 0x5B x = x ^^^ gfmul P 2 x ^^^ gfmul P 8 x ^^^ gfmul P 16 x ^^^ gfmul P 64 x := by
  rw [show (0x5B : Byte) = 1 ^^^ 2 ^^^ 8 ^^^ 16 ^^^ 64 from rfl]
  simp only [gfmul_xor_left, gfmul_one_left]

/-- EF is the sum of 1, 2, 4, 8, 32, 64 and 128. -/
theorem gfmul_EF (P : Poly) (x : Byte) :
    gfmul P 0xEF x =
      x ^^^ gfmul P 2 x ^^^ gfmul P 4 x ^^^ gfmul P 8 x ^^^ gfmul P 32 x ^^^ gfmul P 64 x ^^^ gfmul P 128 x := by
  rw [show (0xEF : Byte) = 1 ^^^ 2 ^^^ 4 ^^^ 8 ^^^ 32 ^^^ 64 ^^^ 128 from rfl]
  simp only [gfmul_xor_left, gfmul_one_left]

section
variable (x : Byte)

theorem mdsEntry_zero : mdsEntry 0 x =
    wordOf (gfmul polyMds 0x01 x) (gfmul polyMds 0x5B x) (gfmul polyMds 0xEF x) (gfmul polyMds 0xEF x) := rfl

theorem mdsEntry_one : mdsEntry 1 x =
    wordOf (gfmul polyMds 0xEF x) (gfmul polyMds 0xEF x) (gfmul polyMds 0x5B x) (gfmul polyMds 0x01 x) := rfl

theorem mdsEntry_two : mdsEntry 2 x =
    wordOf (gfmul polyMds 0x5B x) (gfmul polyMds 0xEF x) (gfmul polyMds 0x01 x) (gfmul polyMds 0xEF x) := rfl

theorem mdsEntry_three : mdsEntry 3 x =
    wordOf (gfmul polyMds 0x5B x) (gfmul polyMds 0x01 x) (gfmul polyMds 0xEF x) (gfmul polyMds 0x5B x) := rfl

end

/-- Settles O48: every entry of the matrix is 01, 5B or EF, and the products by 5B and EF are sums of doublings. -/
theorem mdsEntriesAreColumns : Obligations.MdsEntriesAreColumns := by
  intro x d x5B xEF
  have h01 : gfmul polyMds 0x01 x = x := gfmul_one_left polyMds x
  have h5B : gfmul polyMds 0x5B x = x5B := gfmul_5B polyMds x
  have hEF : gfmul polyMds 0xEF x = xEF := gfmul_EF polyMds x
  rw [mdsEntry_zero, mdsEntry_one, mdsEntry_two, mdsEntry_three, h01, h5B, hEF]
  exact ⟨rfl, rfl, rfl, rfl⟩

/-! ### The RS reduction -/

theorem wordOf_xor (a b c d a' b' c' d' : Byte) :
    wordOf (a ^^^ a') (b ^^^ b') (c ^^^ c') (d ^^^ d') = wordOf a b c d ^^^ wordOf a' b' c' d' := by
  rw [← wordOf_byteOf (wordOf a b c d ^^^ wordOf a' b' c' d')]
  simp

/-- The sum of products is additive in the vector, from any start. -/
theorem foldl_zipWith_gfmul_xor (P : Poly) (row m m' : List Byte) (h : m.length = m'.length) (z z' : Byte) :
    (List.zipWith (gfmul P) row (List.zipWith (· ^^^ ·) m m')).foldl (· ^^^ ·) (z ^^^ z') =
      (List.zipWith (gfmul P) row m).foldl (· ^^^ ·) z ^^^ (List.zipWith (gfmul P) row m').foldl (· ^^^ ·) z' := by
  induction row generalizing m m' z z' with
  | nil => simp
  | cons r row ih =>
    match m, m', h with
    | [], [], _ => simp
    | x :: m, x' :: m', h =>
      have hz : z ^^^ z' ^^^ gfmul P r (x ^^^ x') = (z ^^^ gfmul P r x) ^^^ (z' ^^^ gfmul P r x') := by
        rw [gfmul_xor_right]
        ac_rfl
      simpa [hz] using ih m m' (by simpa using h) (z ^^^ gfmul P r x) (z' ^^^ gfmul P r x')

theorem rsByte_xor (i : Fin 4) (m m' : List Byte) (h : m.length = m'.length) :
    rsByte i (List.zipWith (· ^^^ ·) m m') = rsByte i m ^^^ rsByte i m' :=
  foldl_zipWith_gfmul_xor polyRs (rsRow i) m m' h 0 0

theorem rsReduce_xor (m m' : List Byte) (h : m.length = m'.length) :
    rsReduce (List.zipWith (· ^^^ ·) m m') = rsReduce m ^^^ rsReduce m' := by
  simp only [rsReduce, rsByte_xor _ m m' h, wordOf_xor]

/-! ### The commands -/

/-- A command that exists is decoded from its encoding (R125). -/
theorem hasWord_encode (i : Instr) : hasWord i (encode i) := fun p h => by rw [Encoding.decode_encode, if_pos h]

/-- Settles O25: GFMUL's outcome is the product, and an untainted completion keeps it. -/
theorem gfmulWritesTheProduct : Obligations.GfmulWritesTheProduct := by
  refine ⟨hasWord_encode .gfmulRs, hasWord_encode .gfmulMds, fun s h => ⟨?_, ?_⟩⟩
  · exact congrArg Host.Outcome.next (complete_ok s (gfmulBody polyRs s) s.havocResult h)
  · exact congrArg Host.Outcome.next (complete_ok s (gfmulBody polyMds s) s.havocResult h)

/-- What ensureMDS leaves (R156). -/
theorem ensureMds_eq (s : State) :
    s.ensureMds = { s with mds := if s.mdsValid then s.mds else mdsTables, mdsValid := true } := by
  unfold State.ensureMds
  split
  next h => rw [← h]
  next => rfl

/-- Settles O26: MDSGEN's outcome is that of ensureMDS. -/
theorem mdsgenBuildsTheTables : Obligations.MdsgenBuildsTheTables := by
  refine ⟨hasWord_encode .mdsgen, fun s h => ⟨s.ensureMds.mds, ?_, fun hv => ?_, fun hv j x => ?_⟩⟩
  · refine congrArg Host.Outcome.next ((complete_ok s s.ensureMds s.ensureMds h).trans ?_)
    rw [ensureMds_eq]
    rfl
  · simp [hv]
  · simp [hv]

/-- Settles O27: RSRED's outcome is the reduction, each byte of which is a row of the matrix times the vector, additively. -/
theorem rsredWritesTheReduction : Obligations.RsredWritesTheReduction := by
  refine ⟨hasWord_encode .rsred, fun s h => ?_, fun m m' hm hm' => rsReduce_xor m m' (hm.trans hm'.symm), by decide +kernel,
    fun m0 m1 m2 m3 m4 m5 m6 m7 => ?_⟩
  · exact congrArg Host.Outcome.next (complete_ok s _ s.havocResult h)
  · simp [rsReduce, rsByte, rsRow, polyRs]

end Sys2Proof.Proofs.Field
end

section
/-! The key schedule family (spec/41_keyschedule.md): the layers of the H-function (R183), the key context that KEYSCHED builds
(R186 to R189), the G step as the H-function over the S words (R190), and the completions of HFUNC, KEYSCHED, KEYCLR and GFUNC
(R185, R191 to R193).

Two facts carry the family: a layer of the H-function works lane by lane, and every byte of `x * rho` is `x`. -/

open Sys2Proof Sys2Proof.Machine Sys2Proof.Cert

namespace Sys2Proof.Proofs.KeySchedule

/-! ### The H-function and the G step -/

section
variable (j : Fin 4)

/-- A third key word adds its layer before the two common ones (R183). -/
theorem hbyte_three (x a b c : Word) : hbyte j x [a, b, c] =
    hbyte j (wordOf (q1 (byteOf 0 x)) (q1 (byteOf 1 x)) (q0 (byteOf 2 x)) (q0 (byteOf 3 x)) ^^^ c) [a, b] := by
  match j with
  | 0 | 1 | 2 | 3 => simp [hbyte, hlane, keyByte]

/-- A fourth key word adds its layer before the third one's (R183). -/
theorem hbyte_four (x a b c d : Word) : hbyte j x [a, b, c, d] =
    hbyte j (wordOf (q1 (byteOf 0 x)) (q0 (byteOf 1 x)) (q0 (byteOf 2 x)) (q1 (byteOf 3 x)) ^^^ d) [a, b, c] := by
  match j with
  | 0 | 1 | 2 | 3 => simp [hbyte, hlane, keyByte]

/-- A byte times `rho` does not wrap. -/
theorem toNat_mul_rho (x : Byte) : (x.setWidth 32 * rho).toNat = x.toNat * 0x01010101 := by
  have hx := x.isLt
  have hw : (x.setWidth 32).toNat = x.toNat := BitVec.toNat_setWidth_of_le (by decide)
  have hr : rho.toNat = 0x01010101 := rfl
  rw [BitVec.toNat_mul_of_lt (by rw [hw, hr]; omega), hw, hr]

/-- Each digit of `x * 0x01010101` in base 256 is `x`: a shift by whole bytes only leaves fewer copies of `x`. -/
theorem digit_mul_rho (x : Nat) (hx : x < 256) : x * 0x01010101 / 2 ^ (8 * j.val) % 256 = x := by
  have hshift : x * 0x01010101 / 2 ^ (8 * j.val) = x * (0x01010101 / 2 ^ (8 * j.val)) := by
    match j with
    | 0 => simp
    | 1 | 2 | 3 => simp; omega
  rw [hshift]
  match j with
  | 0 | 1 | 2 | 3 => simp; omega

/-- Every byte of `x * rho` is `x`. -/
theorem byteOf_mul_rho (x : Byte) : byteOf j.val (x.setWidth 32 * rho) = x := by
  apply BitVec.eq_of_toNat_eq
  rw [byteOf, BitVec.extractLsb'_toNat, toNat_mul_rho, Nat.shiftRight_eq_div_pow]
  exact digit_mul_rho j x.toNat x.isLt

/-- Lane `j` reads only byte `j` of its operand (R183), so an S-box entry is the lane's value (R189). -/
theorem sboxEntry_eq (mds : Tables) (sl : List Word) (x : Byte) : sboxEntry mds sl j x = mds.entry j (hlane j sl x) := by
  rw [sboxEntry, hbyte, byteOf_mul_rho]

theorem keySchedule_sbox_entry (mds : Tables) (key : Vector Word 8) (k : Nat) (x : Byte) :
    (keySchedule mds key k).sbox.entry j x = sboxEntry mds (slist key k) j x :=
  Tables.entry_build _ j x

end

/-- Settles O50: S-box `j` at byte `j` of X is lane `j`'s value, so the two sums agree term by term. -/
theorem gStepIsHOverTheSList : Obligations.GStepIsHOverTheSList := by
  intro mds key k x
  simp only [gFunc, keySchedule_sbox_entry, sboxEntry_eq]
  rfl

/-- Through the constant tables the H-function is the sum of four matrix columns (R154, R184). -/
theorem hFunc_mdsTables (x : Word) (l : List Word) : hFunc mdsTables x l =
    mdsEntry 0 (hbyte 0 x l) ^^^ mdsEntry 1 (hbyte 1 x l) ^^^ mdsEntry 2 (hbyte 2 x l) ^^^ mdsEntry 3 (hbyte 3 x l) := by
  simp only [hFunc, mdsTables_entry]

/-! ### The key context of KEYSCHED -/

section
variable (mds : Tables) (key : Vector Word 8) (k : Nat)

theorem keySchedule_subkey (n : Nat) (hn : n < 40) : (keySchedule mds key k).subkey[n] = subkeyOf mds key k n := by
  simp [keySchedule]

theorem subkeyOf_even (i : Nat) : subkeyOf mds key k (2 * i) = scheduleA mds key k i + scheduleB mds key k i := by
  simp [subkeyOf]

theorem double_eq (b : Word) : double b = 2 * b := by
  rw [double, BitVec.shiftLeft_eq_mul_twoPow, BitVec.mul_comm]
  rfl

theorem subkeyOf_odd (i : Nat) :
    subkeyOf mds key k (2 * i + 1) = rol (scheduleA mds key k i + 2 * scheduleB mds key k i) 9 := by
  have hdiv : (2 * i + 1) / 2 = i := by omega
  have hmod : (2 * i + 1) % 2 ≠ 0 := by omega
  simp only [subkeyOf, hdiv, if_neg hmod, double_eq]

theorem keySchedule_sword_get (n : Fin 4) : (keySchedule mds key k).sword.get n = swordReg key k n.val := by
  match n with
  | 0 | 1 | 2 | 3 => rfl

end

/-! ### The commands -/

/-- ensureMDS leaves the constant tables built, under the invariant of R50. -/
theorem ensureMds_of_exact {s : State} (h : s.mdsValid = true → s.mds = mdsTables) :
    s.ensureMds = { s with mds := mdsTables, mdsValid := true } := by
  rw [Field.ensureMds_eq, ← State.ensureMds_mds, ensureMds_exact s h]

/-- The completion of HFUNC with `k` key words (R185). -/
theorem hfuncComplete_eq (k : Nat) {s : State} (ht : s.taint = false) (hm : s.mdsValid = true → s.mds = mdsTables) :
    hfuncComplete k s =
      { s with result := hFunc mdsTables s.opa (hlList s.hl k), mds := mdsTables, mdsValid := true,
               busy := false, done := true, err := false, errcode := .none, taint := false } := by
  rw [hfuncComplete, complete_ok s _ _ ht, hfuncBody, ensureMds_of_exact hm]
  rfl

/-- Settles O28: every HFUNC completes with the H-function over the HL registers it takes. -/
theorem hfuncWritesH : Obligations.HfuncWritesH := by
  refine ⟨Field.hasWord_encode .hfuncK2, Field.hasWord_encode .hfuncK3, Field.hasWord_encode .hfuncK4,
    fun x a b c d => ⟨⟨rfl, rfl, rfl, rfl⟩, fun j => ⟨hbyte_three j x a b c, hbyte_four j x a b c d⟩⟩, fun s ht hm r hr => ?_⟩
  simp only [List.mem_cons, List.not_mem_nil, or_false] at hr
  rw [← hFunc_mdsTables]
  rcases hr with rfl | rfl | rfl
  · exact congrArg Host.Outcome.next (hfuncComplete_eq 2 ht hm)
  · exact congrArg Host.Outcome.next (hfuncComplete_eq 3 ht hm)
  · exact congrArg Host.Outcome.next (hfuncComplete_eq 4 ht hm)

/-- The legal KEYLEN values and their numbers of chunks (R186). -/
theorem keyChunks_of_mem {n : Word} {k : Nat} (h : (n, k) ∈ [((16 : Word), 2), (24, 3), (32, 4)]) :
    keyChunks n = some k := by
  simp only [List.mem_cons, List.not_mem_nil, or_false, Prod.mk.injEq] at h
  rcases h with ⟨rfl, rfl⟩ | ⟨rfl, rfl⟩ | ⟨rfl, rfl⟩ <;> rfl

theorem keysz_of_mem {n : Word} {k : Nat} (h : (n, k) ∈ [((16 : Word), 2), (24, 3), (32, 4)]) :
    (BitVec.ofNat 2 (k - 1)).toNat = k - 1 := by
  simp only [List.mem_cons, List.not_mem_nil, or_false, Prod.mk.injEq] at h
  rcases h with ⟨_, rfl⟩ | ⟨_, rfl⟩ | ⟨_, rfl⟩ <;> rfl

/-- KEYSCHED with a legal KEYLEN writes the key context and the MDS tables (R191). -/
theorem exec_keysched_eq {s : State} {k : Nat} (ht : s.taint = false) (hm : s.mdsValid = true → s.mds = mdsTables)
    (hk : keyChunks s.keylen = some k) :
    exec .keysched s = .next
      { s with ctx := keySchedule mdsTables s.key k, mds := mdsTables, mdsValid := true,
               busy := false, done := true, err := false, errcode := .none, taint := false } := by
  have hbody : keyschedBody s =
      .ok { s with ctx := keySchedule mdsTables s.key k, mds := mdsTables, mdsValid := true } := by
    rw [keyschedBody, hk, ensureMds_of_exact hm]
  rw [exec, execKeysched, hbody, complete_ok s _ _ ht]
  rfl

/-- Settles O29: the context is that of R187 to R189, entry by entry. -/
theorem keyschedBuildsTheContext : Obligations.KeyschedBuildsTheContext := by
  intro s k ht hm hk
  refine ⟨keySchedule mdsTables s.key k, exec_keysched_eq ht hm (keyChunks_of_mem hk), rfl, keysz_of_mem hk,
    fun i => ⟨?_, ?_⟩, fun n => ?_, fun j x => ?_⟩
  · exact (keySchedule_subkey ..).trans (subkeyOf_even ..)
  · exact (keySchedule_subkey ..).trans (subkeyOf_odd ..)
  · exact keySchedule_sword_get mdsTables s.key k n
  · exact (keySchedule_sbox_entry j mdsTables s.key k x).trans (mdsTables_entry ..)

theorem zero_entry (j : Fin 4) (x : Byte) : Tables.zero.entry j x = 0 := by
  simp [Tables.zero, Tables.entry, Table.entry]

/-- The empty key context has no S word. -/
theorem empty_sword_get (n : Fin 4) : KeyCtx.empty.sword.get n = 0 := by
  match n with
  | 0 | 1 | 2 | 3 => rfl

/-- Settles O32: KEYCLR's outcome has zero key registers and the empty key context. -/
theorem keyclrErasesTheKey : Obligations.KeyclrErasesTheKey := by
  refine ⟨Field.hasWord_encode .keyclr, fun s ht => ⟨Vector.replicate 8 0, KeyCtx.empty, ?_, fun i => ?_, fun i => ?_,
    empty_sword_get, zero_entry, rfl, rfl⟩⟩
  · exact congrArg Host.Outcome.next (complete_ok s _ _ ht)
  · exact Vector.getElem_replicate i.isLt
  · exact Vector.getElem_replicate i.isLt

/-- Settles O33: GFUNC's outcome is the G step where there is a key context, and NOKEY where there is none. -/
theorem gfuncWritesG : Obligations.GfuncWritesG := by
  refine ⟨Field.hasWord_encode .gfunc, fun s ht => ⟨fun hv => ?_, fun hv => ?_⟩⟩
  · rw [exec, execGfunc, withKey_valid _ _ hv, complete_ok s _ _ ht]
    rfl
  · rw [failsWith, exec, execGfunc, withKey_none _ _ hv, complete_error s _ _ ht]
    rfl

end Sys2Proof.Proofs.KeySchedule
end


section
/-! The block transform family (spec/42_block.md): E_K with its rounds on the words (R230 to R232), D_K as its inverse (R233 to
R235), and the completions of ENCBLK and DECBLK (R236, R237).

The inverse turns on one point: D_K swaps after every round but the last, where the inverse of an encryption round swaps before
its round. A swap before the loop and one after every round but the last make a swap before every round. -/

open Sys2Proof Sys2Proof.Machine Sys2Proof.Cert

namespace Sys2Proof.Proofs.Block

/-! ### The round and its inverse -/

/-- The inverse of encryption round `r`: the swap is undone, then the round (R231, R233). -/
def unround (c : KeyCtx) (q : Quad) (r : Nat) : Quad := decRound c (swapPairs q) r

/-- A fold is undone by the fold of the inverse steps over the reversed list. -/
theorem foldl_reverse_cancel {α β : Type} {f g : α → β → α} (h : ∀ b a, g (f a b) b = a) (l : List β) (a : α) :
    l.reverse.foldl g (l.foldl f a) = a := by
  induction l generalizing a with
  | nil => rfl
  | cons b l ih => simp only [List.reverse_cons, List.foldl_append, List.foldl_cons, List.foldl_nil, ih, h]

section
variable (c : KeyCtx)

/-- F depends on R0 and R1 only, which a round leaves alone before its swap. -/
theorem unround_encRound (r : Nat) (q : Quad) : unround c (encRound c q r) r = q := by
  simp [unround, encRound, decRound, swapPairs]

theorem encRound_unround (r : Nat) (q : Quad) : encRound c (unround c q r) r = q := by
  simp [unround, encRound, decRound, swapPairs]

/-- The loop of D_K (R234) on the swapped words is the inverse rounds in reverse order. -/
theorem foldl_decTurn_swapPairs (n : Nat) (q : Quad) :
    (List.range (n + 1)).reverse.foldl (decTurn c) (swapPairs q) = (List.range (n + 1)).reverse.foldl (unround c) q := by
  induction n generalizing q with
  | zero => rfl
  | succ n ih =>
    have hturn : decTurn c (swapPairs q) (n + 1) = swapPairs (unround c q (n + 1)) := if_pos n.succ_pos
    rw [List.range_succ, List.reverse_append, List.reverse_singleton, List.singleton_append, List.foldl_cons, List.foldl_cons,
      hturn, ih]

/-- D_K as the inverse rounds in reverse order, between the whitenings. -/
theorem decryptBlock_eq (x : Quad) : decryptBlock c x =
    quadXor ((List.range 16).reverse.foldl (unround c) (swapPairs (quadXor x (whitening c 4)))) (whitening c 0) := by
  rw [decryptBlock, ← foldl_decTurn_swapPairs, swapPairs_swapPairs]

theorem decryptBlock_encryptBlock (x : Quad) : decryptBlock c (encryptBlock c x) = x := by
  rw [decryptBlock_eq, encryptBlock, quadXor_cancel, swapPairs_swapPairs, foldl_reverse_cancel (unround_encRound c),
    quadXor_cancel]

theorem encryptBlock_decryptBlock (x : Quad) : encryptBlock c (decryptBlock c x) = x := by
  have hrounds (q : Quad) : (List.range 16).foldl (encRound c) ((List.range 16).reverse.foldl (unround c) q) = q := by
    simpa using foldl_reverse_cancel (encRound_unround c) (List.range 16).reverse q
  rw [decryptBlock_eq, encryptBlock, quadXor_cancel, hrounds, swapPairs_swapPairs, quadXor_cancel]

end

/-- Settles O51: every round is invertible for any g, so D_K is a two-sided inverse of E_K. -/
theorem decryptionInvertsEncryption : Obligations.DecryptionInvertsEncryption := fun c =>
  ⟨decryptBlock_encryptBlock c, encryptBlock_decryptBlock c,
    Function.bijective_iff_has_inverse.mpr ⟨decryptBlock c, decryptBlock_encryptBlock c, encryptBlock_decryptBlock c⟩⟩

/-! ### E_K on the words -/

section
variable (c : KeyCtx)

/-- Within the array SUBKEY[n] is the array's entry. -/
theorem subkeyAt_eq {n : Nat} (h : n < 40) : subkeyAt c n = c.subkey[n] := by
  simp [subkeyAt, h]

theorem encRound_eq_feistelRound (q : Quad) (r : Fin 16) : encRound c q r.val = feistelRound c r q := by
  have h0 := subkeyAt_eq c (show 2 * r.val + 8 < 40 by omega)
  have h1 := subkeyAt_eq c (show 2 * r.val + 9 < 40 by omega)
  simp only [encRound, roundF, h0, h1, KeySchedule.double_eq]
  rfl

/-- The sixteen rounds are the spelled-out ones. -/
theorem foldl_encRound_eq (q : Quad) :
    (List.range 16).foldl (encRound c) q = (List.finRange 16).foldl (fun q r => feistelRound c r q) q := by
  simp only [← List.map_coe_finRange_eq_range, List.foldl_map, encRound_eq_feistelRound]

theorem quadXor_whitening_zero (p : Quad) : quadXor p (whitening c 0) =
    ⟨p.w0 ^^^ c.subkey[0], p.w1 ^^^ c.subkey[1], p.w2 ^^^ c.subkey[2], p.w3 ^^^ c.subkey[3]⟩ := by
  simp [quadXor, whitening, subkeyAt_eq]

theorem quadXor_whitening_four (p : Quad) : quadXor p (whitening c 4) =
    ⟨p.w0 ^^^ c.subkey[4], p.w1 ^^^ c.subkey[5], p.w2 ^^^ c.subkey[6], p.w3 ^^^ c.subkey[7]⟩ := by
  simp [quadXor, whitening, subkeyAt_eq]

end

/-! ### The commands -/

/-- An untainted completion of a command that needs a key context, where there is one. -/
theorem complete_withKey_valid {s : State} (ht : s.taint = false) (hv : s.ctx.valid = true) (t havoc : State) :
    s.complete (withKey s (.ok t)) havoc = t.finish .none := by
  rw [withKey_valid _ _ hv, complete_ok s t havoc ht]

/-- An untainted completion of a command that needs a key context, where there is none. -/
theorem complete_withKey_none {s : State} (ht : s.taint = false) (hv : s.ctx.valid = false)
    (body : Except ErrCode State) (havoc : State) : s.complete (withKey s body) havoc = s.finish .nokey := by
  rw [withKey_none _ _ hv, complete_error s _ havoc ht]

/-- Settles O34: the rounds of E_K are the spelled-out ones, and both commands complete as commands that need a key context. -/
theorem blockCommandsWriteDout : Obligations.BlockCommandsWriteDout := by
  refine ⟨Field.hasWord_encode .encblk, Field.hasWord_encode .decblk, fun c p => ?_, fun s ht =>
    ⟨fun hv => ⟨?_, ?_⟩, fun hv => ⟨?_, ?_⟩⟩⟩
  · rw [encryptBlock, quadXor_whitening_four, quadXor_whitening_zero, foldl_encRound_eq]
    rfl
  · exact congrArg Host.Outcome.next (complete_withKey_valid ht hv _ s.havocDout)
  · exact congrArg Host.Outcome.next (complete_withKey_valid ht hv _ s.havocDout)
  · exact congrArg Host.Outcome.next (complete_withKey_none ht hv _ s.havocDout)
  · exact congrArg Host.Outcome.next (complete_withKey_none ht hv _ s.havocDout)

end Sys2Proof.Proofs.Block
end

section
/-! The chaining and padding family (spec/43_chaining.md): what unpad accepts (R261), CBC decryption as the inverse of CBC
encryption (R263), and the completions of CHAININIT, IVGEN, CBCENC, CBCDEC, PAD, UNPAD, MSGENC and MSGDEC (R264 to R271).

The four message commands share their two ends: a success is `putOutput`, and a failure is the completion of an error. So each
command's proof is the outcome of its pseudocode, said once for each of its cases. -/

open Sys2Proof Sys2Proof.Machine Sys2Proof.Cert

namespace Sys2Proof.Proofs.Chaining

/-! ### CBC -/

/-- Settles O52: each ciphertext block is the next block's mask on both sides, and D_K inverts E_K. -/
theorem cbcDecryptionInvertsEncryption : Obligations.CbcDecryptionInvertsEncryption := by
  intro c iv ps
  induction ps generalizing iv with
  | nil => rfl
  | cons p ps ih => simp only [cbcEncrypt, cbcDecrypt, Block.decryptBlock_encryptBlock, quadXor_cancel, ih]

/-! ### Padding -/

/-- The conditions of R261 under which unpad succeeds, and its result: the last byte `b` is a count from 1 to 16, the message
has so many bytes, and they all are `b`. -/
theorem unpadBytes_eq_ok_iff {m r : List Byte} {b : Byte} (hb : m.getLastD 0 = b) : unpadBytes m = .ok r ↔
    (1 ≤ b.toNat ∧ b.toNat ≤ 16) ∧ b.toNat ≤ m.length ∧ m.drop (m.length - b.toNat) = List.replicate b.toNat b ∧
      m.take (m.length - b.toNat) = r := by
  simp only [unpadBytes, hb]
  split_ifs with hempty hcount hshort htail
  · rw [false_iff]
    omega
  · rw [false_iff]
    omega
  · rw [false_iff]
    omega
  · simp [htail]
  · have hcount' : 1 ≤ b.toNat ∧ b.toNat ≤ 16 := by omega
    simp [hcount', Nat.le_of_not_lt hshort, not_not.mp htail]

/-- A message followed by `n` bytes of value `n` is accepted. -/
theorem unpadBytes_append_replicate (r : List Byte) {n : Nat} (h1 : 1 ≤ n) (h16 : n ≤ 16) :
    unpadBytes (r ++ List.replicate n (BitVec.ofNat 8 n)) = .ok r := by
  have hlast : (r ++ List.replicate n (BitVec.ofNat 8 n)).getLastD 0 = BitVec.ofNat 8 n := by
    obtain ⟨k, rfl⟩ := Nat.exists_eq_add_of_le' h1
    simp [List.replicate_succ']
  have hval : (BitVec.ofNat 8 n).toNat = n := Nat.mod_eq_of_lt (by omega)
  rw [unpadBytes_eq_ok_iff hlast, hval]
  simp [h1, h16]

/-- What unpad accepts is a message followed by `n` bytes of value `n`. -/
theorem eq_append_replicate_of_unpadBytes {m r : List Byte} (h : unpadBytes m = .ok r) :
    ∃ n, 1 ≤ n ∧ n ≤ 16 ∧ m = r ++ List.replicate n (BitVec.ofNat 8 n) := by
  obtain ⟨⟨h1, h16⟩, _, hdrop, htake⟩ := (unpadBytes_eq_ok_iff rfl).mp h
  refine ⟨_, h1, h16, ?_⟩
  rw [BitVec.ofNat_toNat, BitVec.setWidth_eq, ← hdrop, ← htake, List.take_append_drop]

/-- Settles O53: pad appends such bytes, N being the number of them. -/
theorem unpadAcceptsExactlyPaddedMessages : Obligations.UnpadAcceptsExactlyPaddedMessages := by
  refine fun m => ⟨fun r => ⟨eq_append_replicate_of_unpadBytes, ?_⟩, unpadBytes_error m, ?_⟩
  · rintro ⟨n, h1, h16, rfl⟩
    exact unpadBytes_append_replicate r h1 h16
  · obtain ⟨h1, h16⟩ := codeSize_padCount m.length
    exact unpadBytes_append_replicate m h1 h16

/-! ### Completions -/

section
variable {i : Instr} {s t havoc : State} {body : Except ErrCode State} {c : ErrCode}

/-- The untainted completion of a success is the outcome with the flags written. -/
theorem exec_of_ok (he : exec i s = .next (s.complete body havoc)) (ht : s.taint = false) (hb : body = .ok t) :
    exec i s = .next (t.finish .none) := by
  rw [he, hb, complete_ok s t havoc ht]

/-- The untainted completion of an error is the failure of the command. -/
theorem failsWith_of_error (he : exec i s = .next (s.complete body havoc)) (ht : s.taint = false) (hb : body = .error c)
    (hc : errOf c = true) : failsWith i s c := by
  rw [failsWith, he, hb, complete_error s c havoc ht, State.finish, hc]

/-- The completion of a message command that succeeds: OUTBUF and OUTLEN hold the output, and all else is as before (R268). -/
theorem completes_with_output {out : List Byte} (he : exec i s = .next (s.complete body havoc)) (ht : s.taint = false)
    (hb : body = .ok (putOutput s out)) :
    ∃ t, exec i s = .next t ∧
      t = { s with mem := t.mem, outlen := BitVec.ofNat 32 out.length,
                   busy := false, done := true, err := false, errcode := .none, taint := false } ∧
      ∀ a, t.byteAt a = if 0x8000 ≤ a ∧ a < 0x8000 + out.length then out.getD (a - 0x8000) 0 else s.byteAt a :=
  ⟨_, exec_of_ok he ht hb, rfl, byteAt_putOutput_finish s out .none⟩

end

/-! ### Registers -/

/-- Settles O35: CHAININIT's outcome is the copy. -/
theorem chaininitCopiesIv : Obligations.ChaininitCopiesIv :=
  ⟨Field.hasWord_encode .chaininit, fun s ht =>
    exec_of_ok (i := .chaininit) (t := { s with chain := s.iv }) rfl ht rfl⟩

theorem ivgenBody_rng {s : State} (h : s.params.hasRng = true) :
    ivgenBody s = .ok { s with iv := quadOfBytes (s.entropy 16) }.drawn := if_pos h

theorem ivgenBody_noRng {s : State} (h : s.params.hasRng = false) : ivgenBody s = .error .illegalCmd := by
  simp [ivgenBody, h]

/-- Settles O36: IVGEN's outcome is the draw or the error, as HAS_RNG says. -/
theorem ivgenDrawsTheIv : Obligations.IvgenDrawsTheIv := by
  refine ⟨Field.hasWord_encode .ivgen, fun s ht => ⟨fun h => ?_, fun h => ?_⟩⟩
  · exact exec_of_ok (i := .ivgen) rfl ht (ivgenBody_rng h)
  · exact failsWith_of_error rfl ht (ivgenBody_noRng h) rfl

/-- Settles O37: both commands complete as commands that need a key context. -/
theorem cbcCommandsChain : Obligations.CbcCommandsChain := by
  refine ⟨Field.hasWord_encode .cbcenc, Field.hasWord_encode .cbcdec, fun s ht =>
    ⟨fun hv => ⟨?_, ?_⟩, fun hv => ⟨?_, ?_⟩⟩⟩
  · exact congrArg Host.Outcome.next (Block.complete_withKey_valid ht hv (cbcencBody s) s.havocDout.havocChain)
  · exact congrArg Host.Outcome.next (Block.complete_withKey_valid ht hv (cbcdecBody s) s.havocDout.havocChain)
  · exact failsWith_of_error rfl ht (withKey_none s _ hv) rfl
  · exact failsWith_of_error rfl ht (withKey_none s _ hv) rfl

/-! ### Message commands -/

section
variable {s : State}

/-- LENGTH is the outcome whichever of the two length checks fails. -/
theorem withLength_error_length : withLength s (.error .length) = .error .length := ite_self _

theorem padBody_fits (h : s.msgLen + padCount s.msgLen ≤ s.params.bufBytes) :
    padBody s = .ok (putOutput s (padBytes (s.inbuf s.msgLen))) := by
  have hlen : s.msgLen ≤ s.params.bufBytes := by omega
  exact (withLength_le s _ hlen).trans (if_pos h)

theorem padBody_tooLong (h : s.params.bufBytes < s.msgLen + padCount s.msgLen) : padBody s = .error .length :=
  (congrArg (withLength s) (if_neg (Nat.not_le.mpr h))).trans withLength_error_length

theorem unpadBody_le (h : s.msgLen ≤ s.params.bufBytes) :
    unpadBody s = (unpadBytes (s.inbuf s.msgLen)).map (putOutput s) := by
  rw [unpadBody, withLength_le s _ h]
  cases unpadBytes (s.inbuf s.msgLen) <;> rfl

theorem msgencBody_fits (hv : s.ctx.valid = true) (h : 16 + 16 * (s.msgLen / 16) + 16 ≤ s.params.bufBytes) :
    msgencBody s = .ok (putOutput s (sealMessage s.ctx s.iv (s.inbuf s.msgLen))) := by
  have hlen : s.msgLen ≤ s.params.bufBytes := by omega
  exact (withKey_valid s _ hv).trans ((withLength_le s _ hlen).trans (if_pos h))

theorem msgencBody_tooLong (hv : s.ctx.valid = true) (h : s.params.bufBytes < 16 + 16 * (s.msgLen / 16) + 16) :
    msgencBody s = .error .length :=
  (withKey_valid s _ hv).trans ((congrArg (withLength s) (if_neg (Nat.not_le.mpr h))).trans withLength_error_length)

theorem msgdecBody_tooLong (hv : s.ctx.valid = true) (h : s.params.bufBytes < s.msgLen) : msgdecBody s = .error .length :=
  (withKey_valid s _ hv).trans (withLength_gt s _ h)

theorem msgdecBody_partial (hv : s.ctx.valid = true) (h : s.msgLen ≤ s.params.bufBytes)
    (hb : s.msgLen < 16 ∨ s.msgLen % 16 ≠ 0) : msgdecBody s = .error .blocksize :=
  (withKey_valid s _ hv).trans ((withLength_le s _ h).trans (if_neg (by omega)))

theorem msgdecBody_blocks (hv : s.ctx.valid = true) (h : s.msgLen ≤ s.params.bufBytes) (h16 : 16 ≤ s.msgLen)
    (hmod : s.msgLen % 16 = 0) : msgdecBody s = (openMessage s.ctx (s.inbuf s.msgLen)).map (putOutput s) := by
  rw [msgdecBody, withKey_valid s _ hv, withLength_le s _ h, if_pos ⟨h16, hmod⟩]
  cases openMessage s.ctx (s.inbuf s.msgLen) <;> rfl

end

/-- Settles O38: the padded message is the statement's output. -/
theorem padWritesThePaddedMessage : Obligations.PadWritesThePaddedMessage := by
  refine ⟨Field.hasWord_encode .pad, fun s ht => ⟨fun h => ?_, fun h => ?_⟩⟩
  · have hout : padBytes (s.inbuf (msgLen s)) =
        s.inbuf (msgLen s) ++ List.replicate (padCount (msgLen s)) (BitVec.ofNat 8 (padCount (msgLen s))) := by
      rw [padBytes, inbuf_length]
    exact completes_with_output rfl ht (hout ▸ padBody_fits h)
  · exact failsWith_of_error rfl ht (padBody_tooLong h) rfl

/-- Settles O39: within BUF_BYTES the outcome follows unpad. -/
theorem unpadStripsThePadding : Obligations.UnpadStripsThePadding := by
  refine ⟨Field.hasWord_encode .unpad, fun s ht => ⟨fun out h hu => ?_, fun h hu => ?_, fun h => ?_⟩⟩
  · exact completes_with_output rfl ht ((unpadBody_le h).trans (congrArg (Except.map (putOutput s)) hu))
  · exact failsWith_of_error rfl ht ((unpadBody_le h).trans (congrArg (Except.map (putOutput s)) hu)) rfl
  · exact failsWith_of_error rfl ht (withLength_gt s _ h) rfl

/-- Settles O40: the output is the sealed message, whose length is a law of its own. -/
theorem msgencWritesIvAndCiphertext : Obligations.MsgencWritesIvAndCiphertext := by
  refine ⟨Field.hasWord_encode .msgenc, fun s ht => ⟨fun hv h => ?_, fun hv => ?_, fun hv h => ?_⟩⟩
  · obtain ⟨t, he, ht', hbytes⟩ := completes_with_output (i := .msgenc) rfl ht (msgencBody_fits hv h)
    have hlen := sealMessage_length s.ctx s.iv (s.inbuf (msgLen s))
    rw [inbuf_length] at hlen
    exact ⟨t, he, hlen, ht', hbytes⟩
  · exact failsWith_of_error rfl ht (withKey_none s _ hv) rfl
  · exact failsWith_of_error rfl ht (msgencBody_tooLong hv h) rfl

/-- Settles O41: the checks come in the pseudocode's order, and on whole blocks the outcome follows unpad. -/
theorem msgdecWritesThePlaintext : Obligations.MsgdecWritesThePlaintext := by
  refine ⟨Field.hasWord_encode .msgdec, fun s ht => ⟨fun hv => ?_, fun hv h => ?_, fun hv h hb => ?_,
    fun hv h h16 hmod => ⟨fun hu => ?_, fun out hu => ?_⟩⟩⟩
  · exact failsWith_of_error rfl ht (withKey_none s _ hv) rfl
  · exact failsWith_of_error rfl ht (msgdecBody_tooLong hv h) rfl
  · exact failsWith_of_error rfl ht (msgdecBody_partial hv h hb) rfl
  · exact failsWith_of_error rfl ht ((msgdecBody_blocks hv h h16 hmod).trans (congrArg (Except.map (putOutput s)) hu)) rfl
  · exact completes_with_output rfl ht ((msgdecBody_blocks hv h h16 hmod).trans (congrArg (Except.map (putOutput s)) hu))

end Sys2Proof.Proofs.Chaining
end

section
/-! The system family (spec/44_system.md): what the HOST's accesses do to CMD (R310), CTRL (R313) and the other locations (R314,
R315), NOP (R312), and what a tainted completion leaves of the MDS tables and of STATUS (R311, R156). -/

open Sys2Proof Sys2Proof.Machine Sys2Proof.Cert

namespace Sys2Proof.Proofs.System

/-! ### Tainted completions -/

/-- Whether the command calls ensureMDS: MDSGEN, HFUNC, and a KEYSCHED that does not fail (R156, R311; log entry 8). -/
def callsEnsureMds (i : Instr) (s : State) : Bool :=
  match i with
  | .mdsgen | .hfuncK2 | .hfuncK3 | .hfuncK4 => true
  | .keysched => (keyChunks s.keylen).isSome
  | _ => false

/-- The state whose MDS tables a command leaves. -/
def withMdsOf (i : Instr) (s : State) : State := if callsEnsureMds i s then s.ensureMds else s

/-- KEYSZ is 0 where KEY_VALID is 0 (R36). -/
def KeyszZero (c : KeyCtx) : Prop := c.valid = false → c.keysz = 0

/-- Among the unconstrained values of a command's write set the MDS tables are those that ensureMDS leaves or the old ones, and the
key context satisfies R36 if it did before. -/
structure TaintedTables (i : Instr) (s havoc : State) : Prop where
  mdsValid : havoc.mdsValid = (withMdsOf i s).mdsValid
  mds : havoc.mds = (withMdsOf i s).mds
  keysz : KeyszZero s.ctx → KeyszZero havoc.ctx

theorem havocCtx_keyszZero (s : State) : KeyszZero s.havocCtx.ctx := fun h => if_neg (Bool.eq_false_iff.mp h)

theorem taintedTables_of_ctx_eq {i : Instr} {s havoc : State} (hv : havoc.mdsValid = (withMdsOf i s).mdsValid)
    (hm : havoc.mds = (withMdsOf i s).mds) (hc : havoc.ctx = s.ctx) : TaintedTables i s havoc :=
  ⟨hv, hm, fun h => hc ▸ h⟩

theorem ivgenHavoc_taintedTables (s : State) : TaintedTables .ivgen s (ivgenHavoc s) := by
  unfold ivgenHavoc
  split <;> exact taintedTables_of_ctx_eq rfl rfl rfl

/-- A tainted completion finishes the command with unconstrained values in its write set, the MDS tables apart (R311). -/
theorem exec_tainted (i : Instr) {s : State} (ht : s.taint = true) :
    ∃ havoc, exec i s = .next (s.finishTainted havoc) ∧ TaintedTables i s havoc := by
  suffices h : ∃ body havoc, exec i s = .next (s.complete body havoc) ∧ TaintedTables i s havoc by
    obtain ⟨body, havoc, he, hk⟩ := h
    exact ⟨havoc, he.trans (congrArg _ (complete_tainted s body havoc ht)), hk⟩
  cases i with
  | mdsgen | hfuncK2 | hfuncK3 | hfuncK4 => exact ⟨_, _, rfl, taintedTables_of_ctx_eq rfl rfl (State.ensureMds_ctx s)⟩
  | keysched => exact ⟨_, _, rfl, rfl, rfl, fun _ => havocCtx_keyszZero (keyschedTaintedMds s)⟩
  | keyclr => exact ⟨_, _, rfl, rfl, rfl, fun _ => havocCtx_keyszZero s.havocKey⟩
  | ivgen => exact ⟨_, _, rfl, ivgenHavoc_taintedTables s⟩
  | _ => exact ⟨_, _, rfl, taintedTables_of_ctx_eq rfl rfl rfl⟩

theorem withMdsOf_mdsValid (i : Instr) (s : State) : (withMdsOf i s).mdsValid = (callsEnsureMds i s || s.mdsValid) := by
  unfold withMdsOf
  cases callsEnsureMds i s with
  | true => exact State.ensureMds_mdsValid s
  | false => rfl

/-- ensureMDS keeps the tables exact (R50). -/
theorem withMdsOf_exact (i : Instr) {s : State} (h : s.mds = if s.mdsValid then mdsTables else Tables.zero) :
    (withMdsOf i s).mds = if (withMdsOf i s).mdsValid then mdsTables else Tables.zero := by
  unfold withMdsOf
  cases callsEnsureMds i s with
  | true =>
    have hm : s.ensureMds.mds = mdsTables := ensureMds_exact s fun hv => h.trans (if_pos hv)
    exact hm.trans (if_pos (State.ensureMds_mdsValid s)).symm
  | false => exact h

theorem keyChunks_isSome_iff (n : Word) : (keyChunks n).isSome = true ↔ n ∈ [(16 : Word), 24, 32] := by
  unfold keyChunks
  split_ifs <;> simp_all

theorem callsEnsureMds_of_mem {i : Instr} (s : State) (h : i ∈ [Instr.mdsgen, .hfuncK2, .hfuncK3, .hfuncK4]) :
    callsEnsureMds i s = true := by
  simp only [List.mem_cons, List.not_mem_nil, or_false] at h
  rcases h with rfl | rfl | rfl | rfl <;> rfl

theorem callsEnsureMds_of_not_mem {i : Instr} (s : State)
    (h : i ∉ [Instr.mdsgen, .hfuncK2, .hfuncK3, .hfuncK4, .keysched]) : callsEnsureMds i s = false := by
  cases i with
  | mdsgen | hfuncK2 | hfuncK3 | hfuncK4 | keysched => exact absurd (by decide) h
  | _ => rfl

theorem errOf_eq_true_iff (c : ErrCode) : errOf c = true ↔ c ≠ .none := bne_iff_ne

/-- Settles O46: a tainted completion leaves the MDS tables as ensureMDS does where the command calls it, and otherwise as they
were. -/
theorem taintedCompletionKeepsMdsExact : Obligations.TaintedCompletionKeepsMdsExact := by
  intro i s t ht hst hmds hkey
  obtain ⟨havoc, he, hk⟩ := exec_tainted i ht
  obtain rfl : s.finishTainted havoc = t := Host.Outcome.next.inj (he.symm.trans hst)
  have hm : (s.finishTainted havoc).mds = (withMdsOf i s).mds := hk.mds
  have hw : (s.finishTainted havoc).mdsValid = (withMdsOf i s).mdsValid := hk.mdsValid
  have hv := hw.trans (withMdsOf_mdsValid i s)
  refine ⟨by rw [hm, hw, withMdsOf_exact i hmds], hk.keysz hkey, errOf_eq_true_iff _, fun h => ?_, fun h => ?_, fun hi h => ?_,
    fun hi h => ?_, fun h => ?_⟩
  · rw [hv, h, Bool.or_true]
  · rw [hv, callsEnsureMds_of_mem s h, Bool.true_or]
  · rw [hv, hi, callsEnsureMds, (keyChunks_isSome_iff _).mpr h, Bool.true_or]
  · rw [hv, hi, callsEnsureMds, Bool.eq_false_iff.mpr (mt (keyChunks_isSome_iff _).mp h), Bool.false_or]
  · rw [hv, callsEnsureMds_of_not_mem s h, Bool.false_or]

/-! ### Writes of the HOST -/

theorem busLocate_cmd (p : Params) : busLocate p 4 0x010 = .ok .cmd :=
  (HostBus.busLocate_ok_iff ..).mpr ⟨rfl, rfl, trivial⟩

theorem busLocate_ctrl (p : Params) : busLocate p 4 0x008 = .ok .ctrl :=
  (HostBus.busLocate_ok_iff ..).mpr ⟨rfl, rfl, trivial⟩

/-- Settles O8: the write is dropped or issues the word, as BUSY says. -/
theorem cmdWriteIssuesOrOverruns : Obligations.CmdWriteIssuesOrOverruns := by
  intro s rest v ht
  have hstep : step s = .next ((s.passTurn rest).writeCmd v) := HostBus.step_write ht (busLocate_cmd _)
  rw [hstep, State.writeCmd, State.passTurn_busy]
  exact ⟨fun hb => by rw [hb]; rfl, fun hb => ⟨Config.latency s.draws, by rw [hb]; rfl⟩⟩

/-- Settles O9: SRST, then CLR, decide what the write does. -/
theorem ctrlWriteActs : Obligations.CtrlWriteActs := by
  intro s rest v ht
  have hstep : step s = .next ((s.passTurn rest).writeCtrl v) := HostBus.step_write ht (busLocate_ctrl _)
  rw [hstep, State.writeCtrl]
  refine ⟨fun hsrst => ⟨0, ?_⟩, fun hsrst hclr => ?_, fun hsrst hclr => ?_⟩
  · rw [hsrst]
    rfl
  · rw [hsrst, hclr]
    rfl
  · rw [hsrst, hclr]
    rfl

/-- A store and the passing of the HOST's turn do not meet. -/
theorem storeAt_passTurn (s : State) (rest : List HostOp) (l : Loc) (v : Word) :
    (s.passTurn rest).storeAt l v = { s.storeAt l v with host := rest, countdown := s.countdown - 1 } := by
  cases l <;> rfl

/-- Away from CMD, CTRL and the read-only locations a write stores, and sets TAINT while BUSY = 1 (R314, R53). -/
theorem hostWrite_store (s : State) {l : Loc} (v : Word) (hr : l.readOnly = false) (hcmd : l ≠ .cmd) (hctrl : l ≠ .ctrl) :
    s.hostWrite l v = { s.storeAt l v with taint := s.busy || s.taint } := by
  rcases hostWrite_cases s l v with ⟨h, _⟩ | ⟨h, _⟩ | ⟨h, _⟩ | ⟨_, _, _, h⟩
  · exact absurd h hcmd
  · exact absurd h hctrl
  · cases hr.symm.trans h
  · rw [h, markTaint_eq]
    cases l <;> rfl

/-- Settles O16: such a write is a store that sets TAINT under BUSY. -/
theorem hostStoreTakesEffectAndTaints : Obligations.HostStoreTakesEffectAndTaints := by
  intro s rest offset v l ht hb hr hcmd hctrl
  rw [HostBus.step_write ht hb, hostWrite_store _ v hr hcmd hctrl, storeAt_passTurn]
  rfl

/-! ### Reads of the HOST -/

/-- What the HOST's read does in a step. -/
theorem step_read {s : State} {rest : List HostOp} {width : Nat} {offset : BitVec 16} {l : Loc}
    (ht : hostTurn s (.read width offset) rest) (hb : busLocate s.params width offset = .ok l) :
    step s = .next ((s.passTurn rest).hostRead l) := by
  obtain ⟨hh, hc⟩ := ht
  rw [HostBus.step_eq_hostStep hc, hostStep, hh]
  simp only [hb]

/-- What a poll of WAIT does in a step (R131). -/
theorem step_wait {s : State} {rest : List HostOp} (ht : hostTurn s .wait rest) :
    step s = .next ((s.passTurn (if s.busy then s.host else rest)).hostRead .status) := by
  obtain ⟨hh, hc⟩ := ht
  rw [HostBus.step_eq_hostStep hc, hostStep, hh]

/-- The read of a location in the HOST's turn: the free word or the value is the one before the turn passes. -/
theorem hostRead_passTurn (s : State) (rest : List HostOp) (l : Loc) :
    (s.passTurn rest).hostRead l =
      { s with host := rest, countdown := s.countdown - 1,
               reads := (if s.readsFree l then s.freeAt l else s.valueAt l) :: s.reads,
               draws := if s.readsFree l then s.draws + 1 else s.draws } :=
  hostRead_eq (s.passTurn rest) l

/-- No command has ID, CAPS, CTRL, STATUS or CMD in its write set (R368). -/
theorem inWriteSet_statusSide (s : State) (i : Instr) {l : Loc} (h : l.statusSide = true) : inWriteSet s i l = false := by
  cases l with
  | id | caps | ctrl | status | cmd => cases i <;> rfl
  | _ => cases h

theorem readsFree_statusSide (s : State) {l : Loc} (h : l.statusSide = true) : s.readsFree l = false := by
  have hrun : s.running l = false := by
    unfold State.running
    cases decode s.params s.pending with
    | command i => simp [inWriteSet_statusSide s i h]
    | illegal why => simp
  rw [State.readsFree, hrun, Bool.false_and]

/-- Settles O20: the HOST receives the value or a free word, and nothing but its own fields changes. -/
theorem hostReadReturnsTheValue : Obligations.HostReadReturnsTheValue := by
  refine ⟨fun s rest offset l ht hb => ?_, fun s rest ht => ?_⟩
  · rw [step_read ht hb, hostRead_passTurn]
    refine ⟨fun hf => by rw [hf]; rfl, fun hf => ⟨s.freeAt l, by rw [hf]; rfl⟩, fun h => ?_, fun hrb hl => ⟨?_, ?_⟩⟩
    · exact h.elim (readsFree_statusSide s) (readsFree_idle s l)
    · exact readsFree_hidden s l (by rw [State.hidden, hrb, hl]; rfl)
    · exact Scope.valueAt_keyTable_of_readback_off s l hrb hl
  · rw [step_wait ht, hostRead_passTurn, readsFree_statusSide s (l := .status) rfl, ht.1]
    rfl

/-! ### NOP -/

/-- Settles O24: NOP's outcome is the state as it was, and an untainted completion writes the flags. -/
theorem nopWritesOnlyStatus : Obligations.NopWritesOnlyStatus :=
  ⟨Field.hasWord_encode .nop, fun s ht => Chaining.exec_of_ok (i := .nop) (t := s) rfl ht rfl⟩

end Sys2Proof.Proofs.System
end

section
/-! The exceptions family (spec/60_exceptions.md): which error code a completion reports (R321 to R327, R329), what a failing
command and an ILLEGAL word write (R320, R322, R330), KEYSIZE (R323), and where STATUS, CTRL and CAPS hold their fields (R34 to
R36).

Each command's pseudocode makes its checks in the order of R329, so the code of an untainted completion is the code of the
pseudocode's outcome, and each command that can fail is followed through the chain of its checks. -/

open Sys2Proof Sys2Proof.Machine Sys2Proof.Cert

namespace Sys2Proof.Proofs.Exceptions

/-! ### The code of an outcome -/

/-- The error code that an outcome of a command's pseudocode gives an untainted completion. -/
def outcomeCode (body : Except ErrCode State) : ErrCode :=
  match body with
  | .error c => c
  | .ok _ => .none

theorem complete_errcode {s : State} (ht : s.taint = false) (body : Except ErrCode State) (havoc : State) :
    (s.complete body havoc).errcode = outcomeCode body := by
  cases body with
  | error c => exact congrArg State.errcode (complete_error s c havoc ht)
  | ok t => exact congrArg State.errcode (complete_ok s t havoc ht)

section
variable (s : State)

/-- A message command that unpads can fail with PADDING only (R261). -/
theorem outcomeCode_unpadBytes (m : List Byte) :
    outcomeCode ((unpadBytes m).map (putOutput s)) = if (unpadBytes m).isOk = false then .padding else .none := by
  cases h : unpadBytes m with
  | error c => exact unpadBytes_error m c h
  | ok out => rfl

theorem keyschedBody_illegal (h : s.keylen ∉ [(16 : Word), 24, 32]) : keyschedBody s = .error .keysize := by
  have hk : keyChunks s.keylen = none := by rwa [← Option.not_isSome_iff_eq_none, System.keyChunks_isSome_iff]
  rw [keyschedBody, hk]

theorem outcomeCode_keyschedBody_legal (h : s.keylen ∈ [(16 : Word), 24, 32]) : outcomeCode (keyschedBody s) = .none := by
  obtain ⟨k, hk⟩ := Option.isSome_iff_exists.mp ((System.keyChunks_isSome_iff _).mpr h)
  rw [keyschedBody, hk]
  rfl

/-! ### The first error condition, command by command -/

/-- The first hit in a list, or a default, is a chain of conditions. -/
theorem find?_cons_getD {α : Type} (p : α → Bool) (a d : α) (l : List α) :
    ((a :: l).find? p).getD d = if p a then a else (l.find? p).getD d := by
  rw [List.find?_cons]
  cases p a <;> rfl

/-- R329's list as a chain of conditions. -/
theorem firstError_eq (i : Instr) : firstError i s =
    if raises i s .illegalCmd then .illegalCmd else if raises i s .keysize then .keysize
    else if raises i s .nokey then .nokey else if raises i s .length then .length
    else if raises i s .blocksize then .blocksize else if raises i s .padding then .padding else .none := by
  simp only [firstError, find?_cons_getD, List.find?_nil, Option.getD_none]

theorem firstError_ivgen : firstError .ivgen s = if s.params.hasRng = false then .illegalCmd else .none := by
  simp [firstError_eq, raises]

theorem firstError_keysched :
    firstError .keysched s = if s.keylen ∉ [(16 : Word), 24, 32] then .keysize else .none := by
  simp [firstError_eq, raises, and_assoc]

theorem firstError_keyed {i : Instr} (hi : i ∈ [Instr.gfunc, .encblk, .decblk, .cbcenc, .cbcdec]) :
    firstError i s = if s.ctx.valid = false then .nokey else .none := by
  simp only [List.mem_cons, List.not_mem_nil, or_false] at hi
  rcases hi with rfl | rfl | rfl | rfl | rfl <;> simp [firstError_eq, raises]

theorem firstError_pad : firstError .pad s =
    if s.params.bufBytes < msgLen s + padCount (msgLen s) then .length else .none := by
  have h : s.params.bufBytes < msgLen s ∨ s.params.bufBytes < 16 * (msgLen s / 16) + 16 ↔
      s.params.bufBytes < msgLen s + padCount (msgLen s) := by
    rw [padCount]
    omega
  simp [firstError_eq, raises, h]

theorem firstError_unpad : firstError .unpad s =
    if s.params.bufBytes < msgLen s then .length
    else if (unpadBytes (s.inbuf (msgLen s))).isOk = false then .padding else .none := by
  simp [firstError_eq, raises]

theorem firstError_msgenc : firstError .msgenc s =
    if s.ctx.valid = false then .nokey
    else if s.params.bufBytes < 16 + 16 * (msgLen s / 16) + 16 then .length else .none := by
  have h : s.params.bufBytes < msgLen s ∨ s.params.bufBytes < 16 * (msgLen s / 16) + 32 ↔
      s.params.bufBytes < 16 + 16 * (msgLen s / 16) + 16 := by omega
  simp [firstError_eq, raises, h]

theorem firstError_msgdec : firstError .msgdec s =
    if s.ctx.valid = false then .nokey
    else if s.params.bufBytes < msgLen s then .length
    else if msgLen s < 16 ∨ msgLen s % 16 ≠ 0 then .blocksize
    else if (openMessage s.ctx (s.inbuf (msgLen s))).isOk = false then .padding else .none := by
  simp [firstError_eq, raises]

/-! ### The checks of the pseudocode, command by command -/

theorem ivgenBody_code : outcomeCode (ivgenBody s) = firstError .ivgen s := by
  rw [firstError_ivgen]
  split_ifs with h
  · exact congrArg outcomeCode (Chaining.ivgenBody_noRng h)
  · exact congrArg outcomeCode (Chaining.ivgenBody_rng (eq_true_of_ne_false h))

theorem keyschedBody_code : outcomeCode (keyschedBody s) = firstError .keysched s := by
  rw [firstError_keysched]
  split_ifs with h
  · exact outcomeCode_keyschedBody_legal s h
  · exact congrArg outcomeCode (keyschedBody_illegal s h)

theorem withKey_code {i : Instr} (hi : i ∈ [Instr.gfunc, .encblk, .decblk, .cbcenc, .cbcdec]) (t : State) :
    outcomeCode (withKey s (.ok t)) = firstError i s := by
  rw [firstError_keyed s hi]
  split_ifs with hv
  · exact congrArg outcomeCode (withKey_none s _ hv)
  · exact congrArg outcomeCode (withKey_valid s _ (eq_true_of_ne_false hv))

theorem padBody_code : outcomeCode (padBody s) = firstError .pad s := by
  rw [firstError_pad]
  split_ifs with h
  · exact congrArg outcomeCode (Chaining.padBody_tooLong h)
  · exact congrArg outcomeCode (Chaining.padBody_fits (Nat.le_of_not_lt h))

theorem unpadBody_code : outcomeCode (unpadBody s) = firstError .unpad s := by
  rw [firstError_unpad]
  split
  next h => exact congrArg outcomeCode (withLength_gt s _ h)
  next h =>
    rw [Chaining.unpadBody_le (Nat.le_of_not_lt h)]
    exact outcomeCode_unpadBytes s _

theorem msgencBody_code : outcomeCode (msgencBody s) = firstError .msgenc s := by
  rw [firstError_msgenc]
  split_ifs with hv h
  · exact congrArg outcomeCode (withKey_none s _ hv)
  · exact congrArg outcomeCode (Chaining.msgencBody_tooLong (eq_true_of_ne_false hv) h)
  · exact congrArg outcomeCode (Chaining.msgencBody_fits (eq_true_of_ne_false hv) (Nat.le_of_not_lt h))

theorem msgdecBody_code : outcomeCode (msgdecBody s) = firstError .msgdec s := by
  rw [firstError_msgdec]
  split
  next hv => exact congrArg outcomeCode (withKey_none s _ hv)
  next hv =>
    have hv : s.ctx.valid = true := eq_true_of_ne_false hv
    split
    next h => exact congrArg outcomeCode (Chaining.msgdecBody_tooLong hv h)
    next h =>
      have h : msgLen s ≤ s.params.bufBytes := Nat.le_of_not_lt h
      split
      next hb => exact congrArg outcomeCode (Chaining.msgdecBody_partial hv h hb)
      next hb =>
        obtain ⟨h16, hmod⟩ : 16 ≤ msgLen s ∧ msgLen s % 16 = 0 := by omega
        rw [Chaining.msgdecBody_blocks hv h h16 hmod]
        exact outcomeCode_unpadBytes s _

/-- Every command completes with an outcome whose code is the first error condition that holds (R329). -/
theorem exec_outcomeCode (i : Instr) :
    ∃ body havoc, exec i s = .next (s.complete body havoc) ∧ outcomeCode body = firstError i s := by
  cases i with
  | keysched => exact ⟨_, _, rfl, keyschedBody_code s⟩
  | ivgen => exact ⟨_, _, rfl, ivgenBody_code s⟩
  | gfunc | encblk | decblk | cbcenc | cbcdec => exact ⟨_, _, rfl, withKey_code s (by decide) _⟩
  | pad => exact ⟨_, _, rfl, padBody_code s⟩
  | unpad => exact ⟨_, _, rfl, unpadBody_code s⟩
  | msgenc => exact ⟨_, _, rfl, msgencBody_code s⟩
  | msgdec => exact ⟨_, _, rfl, msgdecBody_code s⟩
  | nop | gfmulRs | gfmulMds | mdsgen | rsred | hfuncK2 | hfuncK3 | hfuncK4 | keyclr | chaininit => exact ⟨_, _, rfl, rfl⟩

end

/-- Settles O42: an untainted completion reports the code of the outcome. -/
theorem errorsAreReportedInOrder : Obligations.ErrorsAreReportedInOrder := by
  intro i s ht
  obtain ⟨body, havoc, he, hcode⟩ := exec_outcomeCode s i
  exact ⟨_, he, (complete_errcode ht body havoc).trans hcode⟩

/-! ### What a failure writes -/

/-- Settles O43: an untainted completion with an error code is that of an outcome that failed. -/
theorem failingCommandWritesOnlyStatus : Obligations.FailingCommandWritesOnlyStatus := by
  intro i s t ht he hc
  obtain ⟨body, havoc, hx⟩ := exec_next i s
  obtain rfl : s.complete body havoc = t := Host.Outcome.next.inj (hx.symm.trans he)
  cases body with
  | ok t => exact absurd (complete_errcode ht (.ok t) havoc) hc
  | error c =>
    rw [complete_error s c havoc ht] at hc ⊢
    rw [State.finish, (System.errOf_eq_true_iff c).mpr hc]

/-- Settles O30: such a KEYLEN gives no number of chunks, and a failure writes STATUS only. -/
theorem keyschedRejectsOtherLengths : Obligations.KeyschedRejectsOtherLengths := by
  refine ⟨Field.hasWord_encode .keysched, fun s ht h16 h24 h32 => ?_⟩
  have hk : s.keylen ∉ [(16 : Word), 24, 32] := by
    simp only [List.mem_cons, List.not_mem_nil, or_false, not_or]
    exact ⟨h16, h24, h32⟩
  exact Chaining.failsWith_of_error rfl ht (keyschedBody_illegal s hk) rfl

theorem coreTurn_of_completionDue {s : State} (h : completionDue s) : s.coreTurn = true := by
  obtain ⟨hb, hd⟩ := h
  rcases hd with hd | hd <;> simp [State.coreTurn, hb, hd]

theorem step_illegal {s : State} {why : Illegal} (hdue : completionDue s)
    (hd : decode s.params s.pending = .illegal why) : step s = .next s.illegalCommand := by
  rw [step, if_pos (coreTurn_of_completionDue hdue), hd]

theorem errOf_eq_decide (c : ErrCode) : errOf c = decide (c ≠ .none) := by
  cases c <;> rfl

/-- Settles O5: an ILLEGAL word completes with the error ILLEGAL_CMD and an empty write set, and TAINT frees the code alone. -/
theorem illegalWordCompletesWithIllegalCmd : Obligations.IllegalWordCompletesWithIllegalCmd := by
  intro s why hdue hd
  rw [step_illegal hdue hd, State.illegalCommand]
  refine ⟨fun ht => ?_, fun ht => ⟨codeOfFin (Config.freeCode s.draws), ?_⟩⟩
  · rw [complete_error s _ _ ht]
    rfl
  · rw [complete_tainted s _ _ ht, ← errOf_eq_decide]
    rfl

/-! ### Fields -/

/-- A field leaves the bits outside it 0. -/
theorem getLsbD_place_of_outside (n : Nat) (b : BitVec n) (lo k : Nat) (h : k < lo ∨ lo + n ≤ k) :
    (place n b lo).getLsbD k = false := by
  simp only [place, BitVec.getLsbD_shiftLeft, BitVec.getLsbD_setWidth]
  rcases h with h | h
  · simp [h]
  · simp [BitVec.getLsbD_of_ge b (k - lo) (by omega)]

/-- A field reads back where it is placed. -/
theorem extractLsb'_place_same (n : Nat) (b : BitVec n) (lo : Nat) (h : lo + n ≤ 32) :
    (place n b lo).extractLsb' lo n = b := by
  ext i hi
  have h1 : lo + i < 32 := by omega
  simp [place, h1, BitVec.getLsbD_eq_getElem hi]

/-- A field leaves the fields below it 0. -/
theorem extractLsb'_place_of_ge (n : Nat) (b : BitVec n) (lo k m : Nat) (h : k + m ≤ lo) :
    (place n b lo).extractLsb' k m = 0 := by
  ext i hi
  simp [getLsbD_place_of_outside n b lo (k + i) (by omega)]

theorem getLsbD_flagAt_same (b : Bool) (lo : Nat) (h : lo < 32) : (flagAt b lo).getLsbD lo = b := by
  simp [flagAt, place, h]

theorem getLsbD_flagAt_of_ne (b : Bool) (lo k : Nat) (h : k ≠ lo) : (flagAt b lo).getLsbD k = false :=
  getLsbD_place_of_outside 1 _ lo k (by omega)

theorem statusWord_flags (s : State) :
    (statusWord s).getLsbD 0 = s.busy ∧ (statusWord s).getLsbD 1 = s.done ∧ (statusWord s).getLsbD 2 = s.err ∧
    (statusWord s).getLsbD 3 = s.overrun ∧ (statusWord s).getLsbD 8 = s.mdsValid ∧
    (statusWord s).getLsbD 9 = s.ctx.valid ∧ (statusWord s).getLsbD 12 = s.irq := by
  simp (disch := decide) only [statusWord, BitVec.getLsbD_or, getLsbD_flagAt_same, getLsbD_flagAt_of_ne,
    getLsbD_place_of_outside, Bool.or_false, Bool.false_or, and_self]

theorem statusWord_errcode (s : State) : (statusWord s).extractLsb' 4 4 = codeBits s.errcode := by
  simp [statusWord, flagAt, BitVec.extractLsb'_or, CoreState.extractLsb'_place_of_le, extractLsb'_place_of_ge,
    extractLsb'_place_same]

theorem statusWord_keysz (s : State) : (statusWord s).extractLsb' 10 2 = s.ctx.keysz := by
  simp [statusWord, flagAt, BitVec.extractLsb'_or, CoreState.extractLsb'_place_of_le, extractLsb'_place_of_ge,
    extractLsb'_place_same]

theorem ctrlWord_eq (s : State) : ctrlWord s = if s.irqen then 2 else 0 := by
  rw [ctrlWord]
  cases s.irqen <;> rfl

theorem capsWord_flags (p : Params) :
    (capsWord p).getLsbD 16 = p.hasRng ∧ (capsWord p).getLsbD 17 = p.readback := by
  simp (disch := decide) only [capsWord, BitVec.getLsbD_or, getLsbD_flagAt_same, getLsbD_flagAt_of_ne,
    getLsbD_place_of_outside, Bool.or_false, Bool.false_or, and_self]

/-- BUF_BLOCKS fits its 16 bits (R7, R34). -/
theorem capsWord_bufBlocks (p : Params) : ((capsWord p).extractLsb' 0 16).toNat = p.bufBytes / 16 := by
  have hf : (capsWord p).extractLsb' 0 16 = BitVec.ofNat 16 p.bufBlocks := by
    simp [capsWord, flagAt, BitVec.extractLsb'_or, extractLsb'_place_of_ge, extractLsb'_place_same]
  have hlt : p.bufBlocks < 2 ^ 16 := by
    have := p.extraBlocks.isLt
    rw [Params.bufBlocks]
    omega
  rw [hf, BitVec.toNat_ofNat, Nat.mod_eq_of_lt hlt, Params.bufBytes, Nat.mul_div_cancel_left _ (by decide)]

/-- Settles O21: the fields of each word are placed apart. -/
theorem statusCtrlCapsLayout : Obligations.StatusCtrlCapsLayout := by
  refine ⟨rfl, fun s => ?_⟩
  obtain ⟨hbusy, hdone, herr, hoverrun, hmds, hkey, hirq⟩ := statusWord_flags s
  obtain ⟨hrng, hreadback⟩ := capsWord_flags s.params
  exact ⟨hbusy, hdone, herr, hoverrun, statusWord_errcode s, hmds, hkey, statusWord_keysz s, hirq, ctrlWord_eq s,
    capsWord_bufBlocks s.params, hrng, hreadback⟩

end Sys2Proof.Proofs.Exceptions
end

section
/-! The reset family (spec/70_reset_and_hazards.md): what each register, flag, table and buffer byte holds right after power-on
(R361). The model's power-on state is a record, so its scalar rows are read off it; the rows of arrays go by their index. -/

open Sys2Proof Sys2Proof.Machine

namespace Sys2Proof.Proofs.Reset

/-- The four-register group that holds zero is the S words of the empty key context. -/
theorem quadZero_get (i : Fin 4) : Quad.zero.get i = 0 := KeySchedule.empty_sword_get i

/-- Before any write a buffer byte is the draw of reset number 0 (R51, R361). -/
theorem byteAt_powerOn (p : Params) (a : Nat) : (State.powerOn p).byteAt a = Config.bufByte 0 a := rfl

/-- Settles O10: the scalar rows of R361 are fields of the power-on state, every group, array and table there holds zeros, and
the byte memory lists nothing, so each byte is its draw. -/
theorem resetValues : Obligations.ResetValues := by
  intro p
  have hgroups (i : Fin 4) : let s := State.powerOn p
      s.hl.get i = 0 ∧ s.iv.get i = 0 ∧ s.chain.get i = 0 ∧ s.din.get i = 0 ∧ s.dout.get i = 0 :=
    ⟨quadZero_get i, quadZero_get i, quadZero_get i, quadZero_get i, quadZero_get i⟩
  have hkey (i : Fin 8) : (State.powerOn p).key[i] = 0 := Vector.getElem_replicate i.isLt
  have hsubkey (i : Fin 40) : (State.powerOn p).ctx.subkey[i] = 0 := Vector.getElem_replicate i.isLt
  exact ⟨rfl, rfl, by decide, -- ID, CAPS
    rfl, rfl, rfl, rfl, rfl, rfl, rfl, rfl, rfl, rfl, -- CTRL.IRQEN, STATUS
    rfl, rfl, -- LASTCMD, TAINT
    rfl, rfl, rfl, rfl, rfl, rfl, -- OPA, OPB, RESULT, KEYLEN, MSGLEN, OUTLEN
    hgroups, hkey, hsubkey, KeySchedule.empty_sword_get, KeySchedule.zero_entry, KeySchedule.zero_entry, byteAt_powerOn p⟩

end Sys2Proof.Proofs.Reset
end

section
/-! The whole-machine family: what every command leaves alone (spec/44_system.md R311; spec/10_state.md, table after R48), the
invariant (R36, R50 to R53), the parameters (R34), the bus errors as the only stops (spec/60_exceptions.md R333), the illegal words
by class (spec/30_encoding.md R127), the key context as a function of the key bytes (R44), and the message round trip
(spec/43_chaining.md R270, R271).

One fact carries the commands: each of them, tainted or not, is the finish of a state that `WritesOnly` its write set. -/

open Sys2Proof Sys2Proof.Machine Sys2Proof.Cert

namespace Sys2Proof.Proofs.WholeMachine

/-! ### What a command writes -/

/-- What no command writes: the parameters, the status fields outside R311's list, and the HOST's side. -/
structure SideKept (s t : State) : Prop where
  params : t.params = s.params
  irqen : t.irqen = s.irqen
  overrun : t.overrun = s.overrun
  lastcmd : t.lastcmd = s.lastcmd
  host : t.host = s.host
  reads : t.reads = s.reads

theorem SideKept.trans {s t u : State} (h : SideKept s t) (h' : SideKept t u) : SideKept s u :=
  ⟨h'.params.trans h.params, h'.irqen.trans h.irqen, h'.overrun.trans h.overrun, h'.lastcmd.trans h.lastcmd,
    h'.host.trans h.host, h'.reads.trans h.reads⟩

/-- The clauses of the invariant on the key context, the MDS tables and the byte memory. -/
structure DataSound (s : State) : Prop where
  keyszZero : System.KeyszZero s.ctx
  mdsExact : s.mds = if s.mdsValid then mdsTables else Tables.zero
  memCanonical : s.mem.wf = true
  memInBuffers : ∀ c ∈ s.mem, inBuffers s.params c.1

/-- `t` is `s` with locations of `W` written, and what is written keeps the data sound. The key registers read 0 and the key
context is gated, so both are held apart from what their locations show. -/
structure WritesOnly (W : Loc → Bool) (s t : State) : Prop where
  side : SideKept s t
  value : ∀ l, W l = false → l ≠ .status → l.mapped s.params → t.valueAt l = s.valueAt l
  key : W (.key 0) = false → t.key = s.key
  ctx : W (.subkey 0) = false → t.ctx = s.ctx
  sound : DataSound s → DataSound t

section
variable {W W' : Loc → Bool} {s t u : State}

theorem WritesOnly.refl (W : Loc → Bool) (s : State) : WritesOnly W s s :=
  ⟨⟨rfl, rfl, rfl, rfl, rfl, rfl⟩, fun _ _ _ _ => rfl, fun _ => rfl, fun _ => rfl, id⟩

theorem WritesOnly.mono (h : WritesOnly W s t) (hW : ∀ l, W' l = false → W l = false) : WritesOnly W' s t :=
  ⟨h.side, fun l hl => h.value l (hW l hl), fun hl => h.key (hW _ hl), fun hl => h.ctx (hW _ hl), h.sound⟩

/-- Writes one after the other write the union. -/
theorem WritesOnly.trans (h : WritesOnly W s t) (h' : WritesOnly W' t u) : WritesOnly (fun l => W' l || W l) s u where
  side := h.side.trans h'.side
  value l hl hst hm := by
    obtain ⟨hl', hl⟩ := Bool.or_eq_false_iff.mp hl
    exact (h'.value l hl' hst (h.side.params ▸ hm)).trans (h.value l hl hst hm)
  key hl := by
    obtain ⟨hl', hl⟩ := Bool.or_eq_false_iff.mp hl
    exact (h'.key hl').trans (h.key hl)
  ctx hl := by
    obtain ⟨hl', hl⟩ := Bool.or_eq_false_iff.mp hl
    exact (h'.ctx hl').trans (h.ctx hl)
  sound hs := h'.sound (h.sound hs)

/-- A draw of free values shows nowhere. -/
theorem WritesOnly.drawn (h : WritesOnly W s t) : WritesOnly W s t.drawn where
  side := h.side.trans ⟨rfl, rfl, rfl, rfl, rfl, rfl⟩
  value l hl hst hm := by
    have hd : t.drawn.valueAt l = t.valueAt l := by cases l <;> rfl
    exact hd.trans (h.value l hl hst hm)
  key := h.key
  ctx := h.ctx
  sound hs := { h.sound hs with }

end

/-! ### The writes that commands are made of -/

section
variable (s : State)

theorem writesOnly_result (v : Word) : WritesOnly Loc.isResult s { s with result := v } where
  side := ⟨rfl, rfl, rfl, rfl, rfl, rfl⟩
  value l hl _ _ := by
    cases l with
    | result => cases hl
    | _ => rfl
  key _ := rfl
  ctx _ := rfl
  sound h := { h with }

theorem writesOnly_dout (q : Quad) : WritesOnly Loc.isDout s { s with dout := q } where
  side := ⟨rfl, rfl, rfl, rfl, rfl, rfl⟩
  value l hl _ _ := by
    cases l with
    | dout i => cases hl
    | _ => rfl
  key _ := rfl
  ctx _ := rfl
  sound h := { h with }

theorem writesOnly_chain (q : Quad) : WritesOnly Loc.isChain s { s with chain := q } where
  side := ⟨rfl, rfl, rfl, rfl, rfl, rfl⟩
  value l hl _ _ := by
    cases l with
    | chain i => cases hl
    | _ => rfl
  key _ := rfl
  ctx _ := rfl
  sound h := { h with }

theorem writesOnly_iv (q : Quad) : WritesOnly Loc.isIv s { s with iv := q } where
  side := ⟨rfl, rfl, rfl, rfl, rfl, rfl⟩
  value l hl _ _ := by
    cases l with
    | iv i => cases hl
    | _ => rfl
  key _ := rfl
  ctx _ := rfl
  sound h := { h with }

theorem writesOnly_key (k : Vector Word 8) : WritesOnly Loc.isKey s { s with key := k } where
  side := ⟨rfl, rfl, rfl, rfl, rfl, rfl⟩
  value l _ _ _ := by cases l <;> rfl
  key hl := nomatch hl
  ctx _ := rfl
  sound h := { h with }

theorem writesOnly_ctx {c : KeyCtx} (hc : System.KeyszZero c) : WritesOnly Loc.isKeyTable s { s with ctx := c } where
  side := ⟨rfl, rfl, rfl, rfl, rfl, rfl⟩
  value l hl hst _ := by
    cases l with
    | subkey i | sword i | sbox j x => cases hl
    | status => exact absurd rfl hst
    | _ => rfl
  key _ := rfl
  ctx hl := nomatch hl
  sound h := { h with keyszZero := hc }

theorem writesOnly_dout_chain (d c : Quad) :
    WritesOnly (fun l => l.isDout || l.isChain) s { s with dout := d, chain := c } :=
  (writesOnly_chain s c).trans (writesOnly_dout { s with chain := c } d)

theorem writesOnly_key_ctx (k : Vector Word 8) {c : KeyCtx} (hc : System.KeyszZero c) :
    WritesOnly (fun l => l.isKey || l.isKeyTable) s { s with key := k, ctx := c } :=
  (writesOnly_ctx s hc).trans (writesOnly_key { s with ctx := c } k)

/-- An output that fits the buffer stays in OUTBUF, which ends where no word of INBUF lies (R84). -/
theorem writesOnly_output {out : List Byte} (n : Word) (hout : out.length ≤ s.params.bufBytes) :
    WritesOnly Loc.isOutput s { s.storeBytes outbufBase out with outlen := n } where
  side := ⟨rfl, rfl, rfl, rfl, rfl, rfl⟩
  value l hl _ hm := by
    cases l with
    | outlen | outbuf m => cases hl
    | inbuf m =>
      have hsize := HostBus.bufBytes_le s.params
      simp only [Loc.mapped] at hm
      exact HostBus.wordAt_storeBytes_of_disjoint s _ _ _ (by simp only [inbufBase, outbufBase]; omega)
    | _ => rfl
  key _ := rfl
  ctx _ := rfl
  sound h :=
    { h with
      memCanonical := Memory.store_wf s.mem outbufBase out h.memCanonical
      memInBuffers := fun c hc => (Memory.mem_store s.mem outbufBase out c hc).elim (h.memInBuffers c)
        fun hr => .inr ⟨hr.1, hr.2.trans_le (Nat.add_le_add_left hout _)⟩ }

/-- ensureMDS writes the MDS window where MDS_VALID = 0 (R156). -/
theorem writesOnly_ensureMds : WritesOnly (fun l => l.isMds && !s.mdsValid) s s.ensureMds := by
  cases hv : s.mdsValid with
  | true =>
    rw [State.ensureMds, if_pos hv]
    exact .refl _ s
  | false =>
    rw [KeySchedule.ensureMds_of_exact (by simp [hv])]
    refine ⟨⟨rfl, rfl, rfl, rfl, rfl, rfl⟩, fun l hl hst _ => ?_, fun _ => rfl, fun _ => rfl,
      fun h => { h with mdsExact := rfl }⟩
    cases l with
    | mds j x => cases hl
    | status => exact absurd rfl hst
    | _ => rfl

theorem writesOnly_keyschedTaintedMds : WritesOnly (fun l => l.isMds && !s.mdsValid) s (keyschedTaintedMds s) := by
  unfold keyschedTaintedMds
  split
  · exact writesOnly_ensureMds s
  · exact .refl _ s

end

/-! ### The outputs of the message commands -/

/-- The outcome of a message command: a success writes an output that fits OUTBUF. -/
def FitsOutbuf (s : State) (body : Except ErrCode State) : Prop :=
  ∀ t, body = .ok t → ∃ out, out.length ≤ s.params.bufBytes ∧ t = putOutput s out

section
variable {s : State}

theorem fitsOutbuf_error (c : ErrCode) : FitsOutbuf s (.error c) := fun _ h => nomatch h

theorem fitsOutbuf_ok {out : List Byte} (h : out.length ≤ s.params.bufBytes) : FitsOutbuf s (.ok (putOutput s out)) :=
  fun _ ht => ⟨out, h, (Except.ok.inj ht).symm⟩

/-- unpad never lengthens, so what it makes of a message that fits, fits. -/
theorem fitsOutbuf_unpadBytes {m : List Byte} (h : m.length ≤ s.params.bufBytes) :
    FitsOutbuf s ((unpadBytes m).map (putOutput s)) := by
  cases hu : unpadBytes m with
  | error c => exact fitsOutbuf_error c
  | ok out => exact fitsOutbuf_ok ((unpadBytes_length_le m out hu).trans h)

theorem padBody_fitsOutbuf : FitsOutbuf s (padBody s) := by
  rcases Nat.lt_or_ge s.params.bufBytes (s.msgLen + padCount s.msgLen) with h | h
  · rw [Chaining.padBody_tooLong h]
    exact fitsOutbuf_error _
  · rw [Chaining.padBody_fits h]
    exact fitsOutbuf_ok (by simpa [padBytes] using h)

theorem unpadBody_fitsOutbuf : FitsOutbuf s (unpadBody s) := by
  rcases Nat.lt_or_ge s.params.bufBytes s.msgLen with h | h
  · rw [unpadBody, withLength_gt s _ h]
    exact fitsOutbuf_error _
  · rw [Chaining.unpadBody_le h]
    exact fitsOutbuf_unpadBytes (by simpa using h)

theorem msgencBody_fitsOutbuf : FitsOutbuf s (msgencBody s) := by
  cases hv : s.ctx.valid with
  | false =>
    rw [msgencBody, withKey_none s _ hv]
    exact fitsOutbuf_error _
  | true =>
    rcases Nat.lt_or_ge s.params.bufBytes (16 + 16 * (s.msgLen / 16) + 16) with h | h
    · rw [Chaining.msgencBody_tooLong hv h]
      exact fitsOutbuf_error _
    · rw [Chaining.msgencBody_fits hv h]
      exact fitsOutbuf_ok (by rw [sealMessage_length, inbuf_length]; omega)

/-- CBC decryption of whole blocks keeps the length (R263). -/
theorem cbcDecrypt_bytes_length (dec : Quad → Quad) (iv : Quad) {m : List Byte} (h : m.length % 16 = 0) :
    (blocksBytes (cbcDecrypt dec iv (blocksOf m))).length = m.length := by
  rw [blocksBytes_length, cbcDecrypt_length, ← blocksBytes_length, blocksBytes_blocksOf m h]

theorem msgdecBody_fitsOutbuf : FitsOutbuf s (msgdecBody s) := by
  cases hv : s.ctx.valid with
  | false =>
    rw [msgdecBody, withKey_none s _ hv]
    exact fitsOutbuf_error _
  | true =>
    rcases Nat.lt_or_ge s.params.bufBytes s.msgLen with h | h
    · rw [Chaining.msgdecBody_tooLong hv h]
      exact fitsOutbuf_error _
    · by_cases hb : s.msgLen < 16 ∨ s.msgLen % 16 ≠ 0
      · rw [Chaining.msgdecBody_partial hv h hb]
        exact fitsOutbuf_error _
      · have hdrop : ((s.inbuf s.msgLen).drop 16).length = s.msgLen - 16 := by simp
        rw [Chaining.msgdecBody_blocks hv h (by omega) (by omega), openMessage]
        exact fitsOutbuf_unpadBytes (by rw [cbcDecrypt_bytes_length _ _ (by omega), hdrop]; omega)

end

/-! ### Completions -/

section
variable {s : State} {body : Except ErrCode State} {t havoc : State} {W : Loc → Bool}

/-- Whatever it does, a completion is the finish of the state as it was, of the pseudocode's, or of the unconstrained one. -/
theorem complete_finishes (hh : WritesOnly W s havoc) (hb : ∀ t, body = .ok t → WritesOnly W s t) :
    ∃ u c, s.complete body havoc = State.finish u c ∧ WritesOnly W s u := by
  rcases complete_cases s body havoc with ⟨_, h⟩ | ⟨_, c, _, h⟩ | ⟨_, t, ht, h⟩
  · exact ⟨havoc.drawn, _, h, hh.drawn⟩
  · exact ⟨s, c, h, .refl W s⟩
  · exact ⟨t, .none, h, hb t ht⟩

theorem complete_ok_finishes (hh : WritesOnly W s havoc) (ht : WritesOnly W s t) :
    ∃ u c, s.complete (.ok t) havoc = State.finish u c ∧ WritesOnly W s u :=
  complete_finishes hh fun _ h => Except.ok.inj h ▸ ht

theorem complete_withKey_finishes (hh : WritesOnly W s havoc) (ht : WritesOnly W s t) :
    ∃ u c, s.complete (withKey s (.ok t)) havoc = State.finish u c ∧ WritesOnly W s u :=
  complete_finishes hh fun _ h => Except.ok.inj (withKey_ok _ _ _ h).2 ▸ ht

theorem complete_output_finishes (hb : FitsOutbuf s body) :
    ∃ u c, s.complete body s.havocOut = State.finish u c ∧ WritesOnly Loc.isOutput s u := by
  refine complete_finishes (writesOnly_output s _ (by simp)) fun t ht => ?_
  obtain ⟨out, hout, rfl⟩ := hb t ht
  exact writesOnly_output s _ hout

end

theorem keysched_finishes (s : State) : ∃ u c, s.complete (keyschedBody s) (keyschedTaintedMds s).havocCtx = State.finish u c ∧
    WritesOnly (inWriteSet s .keysched) s u := by
  refine complete_finishes
    ((writesOnly_keyschedTaintedMds s).trans (writesOnly_ctx _ (System.havocCtx_keyszZero (keyschedTaintedMds s)))) fun t ht => ?_
  unfold keyschedBody at ht
  split at ht <;> cases ht
  exact (writesOnly_ensureMds s).trans (writesOnly_ctx _ nofun)

theorem ivgen_finishes (s : State) : ∃ u c, s.complete (ivgenBody s) (ivgenHavoc s) = State.finish u c ∧
    WritesOnly Loc.isIv s u := by
  unfold ivgenBody ivgenHavoc
  split
  · exact complete_ok_finishes (writesOnly_iv s _) (writesOnly_iv s _).drawn
  · exact complete_finishes (.refl _ s) fun _ h => nomatch h

/-- Every command, tainted or not, finishes a state in which only its write set is written (R311). -/
theorem exec_finishes (i : Instr) (s : State) :
    ∃ u c, exec i s = .next (State.finish u c) ∧ WritesOnly (inWriteSet s i) s u := by
  suffices h : ∃ body havoc, exec i s = .next (s.complete body havoc) ∧
      ∃ u c, s.complete body havoc = State.finish u c ∧ WritesOnly (inWriteSet s i) s u by
    obtain ⟨_, _, he, u, c, hf, hw⟩ := h
    exact ⟨u, c, he.trans (congrArg _ hf), hw⟩
  cases i with
  | nop => exact ⟨_, _, rfl, complete_ok_finishes (.refl _ s) (.refl _ s)⟩
  | gfmulRs | gfmulMds | rsred => exact ⟨_, _, rfl, complete_ok_finishes (writesOnly_result s _) (writesOnly_result s _)⟩
  | mdsgen =>
    have h : WritesOnly Loc.isMds s s.ensureMds := (writesOnly_ensureMds s).mono fun l hl => by rw [hl]; rfl
    exact ⟨_, _, rfl, complete_ok_finishes h h⟩
  | hfuncK2 | hfuncK3 | hfuncK4 =>
    exact ⟨_, _, rfl, complete_ok_finishes ((writesOnly_ensureMds s).trans (writesOnly_result _ _))
      ((writesOnly_ensureMds s).trans (writesOnly_result _ _))⟩
  | keysched => exact ⟨_, _, rfl, keysched_finishes s⟩
  | keyclr =>
    exact ⟨_, _, rfl, complete_ok_finishes (writesOnly_key_ctx s _ (System.havocCtx_keyszZero s.havocKey))
      (writesOnly_key_ctx s _ fun _ => rfl)⟩
  | gfunc => exact ⟨_, _, rfl, complete_withKey_finishes (writesOnly_result s _) (writesOnly_result s _)⟩
  | encblk | decblk => exact ⟨_, _, rfl, complete_withKey_finishes (writesOnly_dout s _) (writesOnly_dout s _)⟩
  | cbcenc | cbcdec => exact ⟨_, _, rfl, complete_withKey_finishes (writesOnly_dout_chain s _ _) (writesOnly_dout_chain s _ _)⟩
  | chaininit => exact ⟨_, _, rfl, complete_ok_finishes (writesOnly_chain s _) (writesOnly_chain s _)⟩
  | ivgen => exact ⟨_, _, rfl, ivgen_finishes s⟩
  | pad => exact ⟨_, _, rfl, complete_output_finishes padBody_fitsOutbuf⟩
  | unpad => exact ⟨_, _, rfl, complete_output_finishes unpadBody_fitsOutbuf⟩
  | msgenc => exact ⟨_, _, rfl, complete_output_finishes msgencBody_fitsOutbuf⟩
  | msgdec => exact ⟨_, _, rfl, complete_output_finishes msgdecBody_fitsOutbuf⟩

/-- An ILLEGAL word's write set is empty (R322). -/
theorem illegalCommand_finishes (s : State) :
    ∃ u c, s.illegalCommand = State.finish u c ∧ WritesOnly (fun _ => false) s u :=
  complete_finishes (.refl _ s) fun _ h => nomatch h

/-- STATUS is the only location that shows a finish. -/
theorem valueAt_finish (s : State) (c : ErrCode) {l : Loc} (h : l ≠ .status) : (s.finish c).valueAt l = s.valueAt l := by
  cases l with
  | status => exact absurd rfl h
  | _ => rfl

/-- Settles O44: a finish writes BUSY, DONE, TAINT, ERR and ERRCODE, and no command's write set reaches the rest. -/
theorem everyCommandCompletes : Obligations.EveryCommandCompletes := by
  intro i s
  obtain ⟨u, c, he, hw⟩ := exec_finishes i s
  obtain ⟨hparams, hirqen, hoverrun, hlastcmd, hhost, hreads⟩ := hw.side
  exact ⟨u.finish c, he, rfl, rfl, rfl, System.errOf_eq_true_iff c, hparams, hirqen, hoverrun, hlastcmd, hhost, hreads⟩

/-- Settles O45: the finished state differs in the write set only, which has the key registers for KEYCLR alone and the key
tables for KEYSCHED and KEYCLR alone. -/
theorem commandsKeepToTheirWriteSet : Obligations.CommandsKeepToTheirWriteSet := by
  intro i s t hst
  obtain ⟨u, c, he, hw⟩ := exec_finishes i s
  obtain rfl : u.finish c = t := Host.Outcome.next.inj (he.symm.trans hst)
  refine ⟨fun l hl hstatus hm => (valueAt_finish u c hstatus).trans (hw.value l hl hstatus hm), fun hclr => hw.key ?_,
    fun hsched hclr => hw.ctx ?_⟩
  · cases i with
    | keyclr => exact absurd rfl hclr
    | _ => rfl
  · cases i with
    | keysched => exact absurd rfl hsched
    | keyclr => exact absurd rfl hclr
    | _ => rfl

/-! ### The invariant -/

/-- The clauses of the invariant on STATUS, TAINT and PENDING. -/
structure StatusSound (s : State) : Prop where
  errWithCode : s.err = errOf s.errcode
  busyClear : s.busy = true → s.done = false ∧ s.errcode = .none
  taintBusy : s.taint = true → s.busy = true
  pendingLast : s.busy = true → s.pending = s.lastcmd

theorem inv_iff (s : State) : s.Inv ↔ StatusSound s ∧ DataSound s :=
  ⟨fun h => ⟨{ h with }, { h with }⟩, fun ⟨hs, hd⟩ => { hs, hd with }⟩

/-- Settles O55: every status bit is 0 at power-on, and the tables and the byte memory are empty. -/
theorem invariantHoldsAtReset : Obligations.InvariantHoldsAtReset := fun p =>
  { errWithCode := rfl, busyClear := nofun, taintBusy := nofun, pendingLast := nofun, keyszZero := fun _ => rfl, mdsExact := rfl,
    memCanonical := reset_mem_wf p, memInBuffers := nofun }

section
variable {s : State}

/-- A finish is sound, with BUSY and TAINT 0 and ERR going with ERRCODE. -/
theorem inv_finish {W : Loc → Bool} {u : State} (h : s.Inv) (hw : WritesOnly W s u) (c : ErrCode) : (u.finish c).Inv :=
  (inv_iff _).mpr ⟨⟨rfl, nofun, nofun, nofun⟩, { hw.sound ((inv_iff s).mp h).2 with }⟩

theorem inv_exec {i : Instr} {t : State} (h : s.Inv) (he : exec i s = .next t) : t.Inv := by
  obtain ⟨u, c, hf, hw⟩ := exec_finishes i s
  obtain rfl : u.finish c = t := Host.Outcome.next.inj (hf.symm.trans he)
  exact inv_finish h hw c

theorem inv_illegalCommand (h : s.Inv) : s.illegalCommand.Inv := by
  obtain ⟨u, c, hf, hw⟩ := illegalCommand_finishes s
  exact hf ▸ inv_finish h hw c

theorem inv_passTurn (h : s.Inv) (rest : List HostOp) : (s.passTurn rest).Inv := { h with }

theorem inv_hostRead (h : s.Inv) (l : Loc) : (s.hostRead l).Inv := by
  rw [hostRead_eq]
  exact { h with }

theorem inv_markTaint (h : s.Inv) : s.markTaint.Inv := by
  rw [markTaint_eq]
  exact { h with taintBusy := fun ht => (Bool.or_eq_true_iff.mp ht).elim id h.taintBusy }

/-- A write to CMD is dropped with OVERRUN, or clears STATUS and latches the word as PENDING and LASTCMD (R310). -/
theorem inv_writeCmd (h : s.Inv) (v : Word) : (s.writeCmd v).Inv := by
  unfold State.writeCmd
  split
  · exact { h with }
  · exact
      { h with errWithCode := rfl, busyClear := fun _ => ⟨rfl, rfl⟩, taintBusy := fun _ => rfl, pendingLast := fun _ => rfl }

/-- A write to CTRL resets, clears STATUS, or writes IRQEN alone (R313). -/
theorem inv_writeCtrl (h : s.Inv) (v : Word) : (s.writeCtrl v).Inv := by
  unfold State.writeCtrl
  split
  · exact { invariantHoldsAtReset s.params with }
  · split
    · exact { h with errWithCode := rfl, busyClear := fun _ => ⟨rfl, rfl⟩ }
    · exact { h with }

/-- The four bytes of an existing word of INBUF lie in INBUF, whose size is a multiple of 4 (R7, R84). -/
theorem inBuffers_inbufWord {p : Params} {m a : Nat} (hm : 4 * m < p.bufBytes) (ha : inbufBase + 4 * m ≤ a)
    (ha' : a < inbufBase + 4 * m + 4) : inBuffers p a := by
  unfold Params.bufBytes at hm
  unfold inBuffers Params.bufBytes
  omega

theorem inv_storeAt (h : s.Inv) {l : Loc} (hl : l.mapped s.params) (v : Word) : (s.storeAt l v).Inv := by
  cases l with
  | inbuf m =>
    exact
      { h with
        memCanonical := Memory.store_wf s.mem _ _ h.memCanonical
        memInBuffers := fun c hc => (Memory.mem_store s.mem _ _ c hc).elim (h.memInBuffers c)
          fun ⟨ha, ha'⟩ => inBuffers_inbufWord hl ha ha' }
  | _ => exact { h with }

theorem inv_hostWrite (h : s.Inv) {l : Loc} (hl : l.mapped s.params) (v : Word) : (s.hostWrite l v).Inv := by
  rcases hostWrite_cases s l v with ⟨_, e⟩ | ⟨_, e⟩ | ⟨_, e⟩ | ⟨_, _, _, e⟩ <;> rw [e]
  · exact inv_writeCmd h v
  · exact inv_writeCtrl h v
  · exact inv_markTaint h
  · exact inv_markTaint (inv_storeAt h hl v)

theorem inv_hostStep {t : State} (h : s.Inv) (hst : hostStep s = .next t) : t.Inv := by
  rcases hostStep_cases s with
    ⟨_, e⟩ | ⟨rest, _, e⟩ | ⟨_, _, rest, l, _, _, e⟩ | ⟨width, offset, v, rest, l, _, hb, e⟩ | ⟨_, _, _, _, _, e⟩ <;>
    cases e.symm.trans hst
  · exact h
  · exact inv_hostRead (inv_passTurn h _) .status
  · exact inv_hostRead (inv_passTurn h rest) l
  · obtain ⟨_, _, hl⟩ := (HostBus.busLocate_ok_iff s.params width offset l).mp hb
    exact inv_hostWrite (inv_passTurn h rest) hl v

end

/-- Settles O56: completions finish with sound data, and each HOST access keeps the clauses it meets. -/
theorem stepKeepsTheInvariant : Obligations.StepKeepsTheInvariant := by
  intro s t h hst
  rcases step_cases s with ⟨_, i, _, e⟩ | ⟨_, _, _, e⟩ | ⟨_, e⟩ <;> rw [e] at hst
  · exact inv_exec h hst
  · cases hst
    exact inv_illegalCommand h
  · exact inv_hostStep h hst

/-! ### Steps -/

/-- Settles O4: a due completion is the CORE's turn. -/
theorem stepCompletesThePendingCommand : Obligations.StepCompletesThePendingCommand := by
  intro s i hdue hd
  rw [step, if_pos (Exceptions.coreTurn_of_completionDue hdue), hd]

/-- A 32-bit word is the command word of its own bits. -/
theorem tableWord_toNat (w : BitVec 32) : tableWord 32 w.toNat = w := by
  rw [tableWord, Nat.mod_eq_of_lt w.isLt, BitVec.ofNat_toNat, BitVec.setWidth_eq]

/-- Settles O6: the placed word is pending with its completion due, and it decodes to its command. -/
theorem placedCommandRunsNext : Obligations.PlacedCommandRunsNext := by
  intro s i hwf
  rw [State.withFetchWord, tableWord_toNat]
  exact stepCompletesThePendingCommand _ i ⟨rfl, .inl rfl⟩ ((Encoding.decode_eq_command_iff _ _ i).mpr ⟨rfl, hwf⟩)

/-- Settles O7: the turn is the HOST's, which has no access to make. -/
theorem idleHoldsAllState : Obligations.IdleHoldsAllState := by
  intro s hb hh
  have hc : s.coreTurn = false := by rw [State.coreTurn, hb, Bool.false_and]
  rw [HostBus.step_eq_hostStep hc, hostStep, hh]

/-- A step leads to a next state, or it is the bus error of the HOST's ill-formed next access. -/
theorem step_outcome (s : State) : (∃ t, step s = .next t) ∨
    ∃ f op rest, step s = .fault f ∧ s.coreTurn = false ∧ s.host = op :: rest ∧ op.wf s.params = false := by
  rcases step_cases s with ⟨_, i, _, e⟩ | ⟨_, _, _, e⟩ | ⟨hc, e⟩
  · obtain ⟨body, havoc, he⟩ := exec_next i s
    exact .inl ⟨_, e.trans he⟩
  · exact .inl ⟨_, e⟩
  · rw [e]
    rcases hostStep_cases s with
      ⟨_, h⟩ | ⟨_, _, h⟩ | ⟨_, _, _, _, _, _, h⟩ | ⟨_, _, _, _, _, _, _, h⟩ | ⟨op, rest, f, hh, hwf, h⟩
    · exact .inl ⟨_, h⟩
    · exact .inl ⟨_, h⟩
    · exact .inl ⟨_, h⟩
    · exact .inl ⟨_, h⟩
    · exact .inr ⟨f, op, rest, h, hc, hh, hwf⟩

/-- Settles O13: a step is next, or it is such a bus error. -/
theorem onlyBusErrorsStop : Obligations.OnlyBusErrorsStop := by
  intro s
  rcases step_outcome s with ⟨t, h⟩ | ⟨_, op, rest, h, hc, hh, hwf⟩ <;> rw [h]
  · exact ⟨nofun, nofun⟩
  · exact ⟨nofun, fun _ _ => ⟨hc, op, rest, hh, hwf⟩⟩

/-- `t` has the parameters of `s`, and its HOST makes no access that the HOST of `s` does not make. -/
structure HostGoesOn (s t : State) : Prop where
  params : t.params = s.params
  host : t.host ⊆ s.host

section
variable {s t : State}

theorem HostGoesOn.of_eq (hp : t.params = s.params) (hh : t.host = s.host) : HostGoesOn s t :=
  ⟨hp, hh ▸ List.Subset.refl _⟩

theorem HostGoesOn.trans {u : State} (h : HostGoesOn s t) (h' : HostGoesOn t u) : HostGoesOn s u :=
  ⟨h'.params.trans h.params, List.Subset.trans h'.host h.host⟩

theorem hostGoesOn_hostRead (s : State) (l : Loc) : HostGoesOn s (s.hostRead l) := by
  rw [hostRead_eq]
  exact .of_eq rfl rfl

theorem hostGoesOn_writeCmd (s : State) (v : Word) : HostGoesOn s (s.writeCmd v) := by
  unfold State.writeCmd
  split <;> exact .of_eq rfl rfl

/-- A soft reset is no reset of the HOST, and the parameters are no state (R360). -/
theorem hostGoesOn_writeCtrl (s : State) (v : Word) : HostGoesOn s (s.writeCtrl v) := by
  unfold State.writeCtrl
  split
  · exact .of_eq rfl rfl
  · split <;> exact .of_eq rfl rfl

theorem hostGoesOn_markTaint (s : State) : HostGoesOn s s.markTaint := .of_eq (by simp) (by simp)

theorem hostGoesOn_storeAt (s : State) (l : Loc) (v : Word) : HostGoesOn s (s.storeAt l v) := by
  cases l <;> exact .of_eq rfl rfl

theorem hostGoesOn_hostWrite (s : State) (l : Loc) (v : Word) : HostGoesOn s (s.hostWrite l v) := by
  rcases hostWrite_cases s l v with ⟨_, e⟩ | ⟨_, e⟩ | ⟨_, e⟩ | ⟨_, _, _, e⟩ <;> rw [e]
  · exact hostGoesOn_writeCmd s v
  · exact hostGoesOn_writeCtrl s v
  · exact hostGoesOn_markTaint s
  · exact (hostGoesOn_storeAt s l v).trans (hostGoesOn_markTaint _)

theorem hostGoesOn_passTurn {rest : List HostOp} (h : rest ⊆ s.host) : HostGoesOn s (s.passTurn rest) := ⟨rfl, h⟩

/-- The HOST's turn takes an access off its list, or keeps a WAIT there. -/
theorem hostGoesOn_hostStep (h : hostStep s = .next t) : HostGoesOn s t := by
  have tail {op : HostOp} {rest : List HostOp} (hh : s.host = op :: rest) : rest ⊆ s.host :=
    hh ▸ List.subset_cons_self op rest
  rcases hostStep_cases s with
    ⟨_, e⟩ | ⟨rest, hh, e⟩ | ⟨_, _, rest, l, hh, _, e⟩ | ⟨_, _, v, rest, l, hh, _, e⟩ | ⟨_, _, _, _, _, e⟩ <;>
    cases e.symm.trans h
  · exact .of_eq rfl rfl
  · refine (hostGoesOn_passTurn ?_).trans (hostGoesOn_hostRead _ _)
    split
    · exact List.Subset.refl _
    · exact tail hh
  · exact (hostGoesOn_passTurn (tail hh)).trans (hostGoesOn_hostRead _ l)
  · exact (hostGoesOn_passTurn (tail hh)).trans (hostGoesOn_hostWrite _ l v)

theorem hostGoesOn_finish {W : Loc → Bool} (h : WritesOnly W s t) (c : ErrCode) : HostGoesOn s (t.finish c) :=
  .of_eq h.side.params h.side.host

theorem hostGoesOn_step (h : step s = .next t) : HostGoesOn s t := by
  rcases step_cases s with ⟨_, i, _, e⟩ | ⟨_, _, _, e⟩ | ⟨_, e⟩ <;> rw [e] at h
  · obtain ⟨u, c, he, hw⟩ := exec_finishes i s
    cases he.symm.trans h
    exact hostGoesOn_finish hw c
  · obtain ⟨u, c, he, hw⟩ := illegalCommand_finishes s
    cases h
    exact he ▸ hostGoesOn_finish hw c
  · exact hostGoesOn_hostStep h

theorem HostGoesOn.hostWf (h : HostGoesOn s t) (hwf : s.hostWf) : t.hostWf := fun op hop => by
  rw [h.params]
  exact hwf op (h.host hop)

end

/-- Settles O57: no completion and no HOST access writes the parameters, and ID and CAPS show nothing else. -/
theorem parametersNeverChange : Obligations.ParametersNeverChange := fun _ _ h =>
  have hp := (hostGoesOn_step h).params
  ⟨hp, rfl, congrArg capsWord hp⟩

/-- A well-formed HOST meets no bus error, and a step leaves it well-formed. -/
theorem step_of_hostWf {s : State} (hwf : s.hostWf) : ∃ t, step s = .next t ∧ t.hostWf := by
  rcases step_outcome s with ⟨t, h⟩ | ⟨_, op, rest, _, _, hh, hbad⟩
  · exact ⟨t, h, (hostGoesOn_step h).hostWf hwf⟩
  · have hop : op.wf s.params = true := hwf op (hh ▸ List.mem_cons_self)
    cases hbad.symm.trans hop

theorem safeRun_of_hostWf (k : Nat) {s : State} (hwf : s.hostWf) : SafeRun s k := by
  induction k generalizing s with
  | zero => exact ⟨s, rfl⟩
  | succ k ih =>
    obtain ⟨t, h, ht⟩ := step_of_hostWf hwf
    obtain ⟨u, hu⟩ := ih ht
    exact ⟨u, (Scope.run_succ_of_next Sys2Proof.core k h).trans hu⟩

/-- Settles O14: the step lemma, and by induction on the number of steps the run. -/
theorem wellFormedHostRunsSafely : Obligations.WellFormedHostRunsSafely := fun _ hwf =>
  ⟨step_of_hostWf hwf, fun k => safeRun_of_hostWf k hwf⟩

/-! ### Illegal words -/

section
variable {arg : BitVec 4} {op : BitVec 8} {i : Instr} {why : Illegal}

theorem arg_of_decodeC0_illegal (h : decodeC0 arg i = .illegal why) : arg.toNat ≠ 0 := by
  unfold decodeC0 at h
  split at h
  next => cases h
  next ha => exact fun h0 => ha (BitVec.eq_of_toNat_eq h0)

theorem arg_of_decodeCP_illegal (h : decodeCP arg = .illegal why) : arg.toNat / 2 ≠ 0 := by
  unfold decodeCP at h
  split at h
  next => cases h
  next => cases h
  next h0 h1 =>
    simp only [imp_false] at h0 h1
    omega

theorem arg_of_decodeCH_illegal (h : decodeCH arg = .illegal why) :
    arg.toNat % 8 ≠ 2 ∧ arg.toNat % 8 ≠ 3 ∧ arg.toNat % 8 ≠ 4 ∨ 8 ≤ arg.toNat := by
  unfold decodeCH at h
  split at h
  next => cases h
  next => cases h
  next => cases h
  next h2 h3 h4 =>
    simp only [imp_false] at h2 h3 h4
    omega

/-- The classes of R127 on the fields OP and ARG: an unknown opcode, or an ARG that the opcode's format forbids. -/
def IllegalFields (op arg : Nat) : Prop :=
  op = 0x0E ∨ op = 0x0F ∨ 0x14 ≤ op ∨ (op ≠ 1 ∧ op ≠ 4 ∧ arg ≠ 0) ∨ (op = 1 ∧ arg / 2 ≠ 0) ∨
    (op = 4 ∧ (arg % 8 ≠ 2 ∧ arg % 8 ≠ 3 ∧ arg % 8 ≠ 4 ∨ 8 ≤ arg))

theorem illegalFields_of_decodeOp (h : decodeOp op arg = .illegal why) : IllegalFields op.toNat arg.toNat := by
  unfold decodeOp at h
  unfold IllegalFields
  split at h
  case h_2 ho =>
    have := arg_of_decodeCP_illegal h
    omega
  case h_5 ho =>
    have := arg_of_decodeCH_illegal h
    omega
  case h_19 =>
    simp only [imp_false] at *
    omega
  all_goals
    have := arg_of_decodeC0_illegal h
    omega

end

theorem illegalFields_of_decodeWord {w : BitVec 32} {why : Illegal} (h : decodeWord w = .illegal why) :
    cmdRsv w ≠ 0 ∨ IllegalFields (cmdOp w).toNat (cmdArg w).toNat := by
  unfold decodeWord at h
  split at h
  next => exact .inr (illegalFields_of_decodeOp h)
  next hr => exact .inl hr

/-- No row of the table is in a class of R127 but IVGEN's, where HAS_RNG = 0. -/
theorem wf_eq_false_iff (p : Params) (i : Instr) : i.wf p = false ↔
    cmdRsv (encode i) ≠ 0 ∨ IllegalFields (cmdOp (encode i)).toNat (cmdArg (encode i)).toNat ∨
      ((cmdOp (encode i)).toNat = 0x0D ∧ p.hasRng = false) := by
  cases i <;> simp [Instr.wf, encode, cmdRsv, cmdOp, cmdArg, IllegalFields]

theorem decode_illegal_iff (p : Params) (w : BitVec 32) : (∃ why, decode p w = .illegal why) ↔
    cmdRsv w ≠ 0 ∨ IllegalFields (cmdOp w).toNat (cmdArg w).toNat ∨ ((cmdOp w).toNat = 0x0D ∧ p.hasRng = false) := by
  cases h : decodeWord w with
  | illegal why =>
    have hd : decode p w = .illegal why := by rw [decode, h]
    exact iff_of_true ⟨why, hd⟩ ((illegalFields_of_decodeWord h).imp_right .inl)
  | command i =>
    obtain rfl := Encoding.eq_encode_of_decodeWord h
    rw [← wf_eq_false_iff, Encoding.decode_encode]
    cases i.wf p <;> simp

/-- Settles O3: a word that is no row of the table is in one of the classes by its fields, and of the rows only IVGEN's can be. -/
theorem illegalWordsByClass : Obligations.IllegalWordsByClass := by
  intro p w
  rw [decode_illegal_iff]
  simp only [IllegalFields, or_assoc]
  rfl

/-! ### The key context -/

/-- A key context is its fields (R49). -/
theorem keyCtx_eq {c c' : KeyCtx} (hvalid : c'.valid = c.valid) (hkeysz : c'.keysz = c.keysz) (hsubkey : c'.subkey = c.subkey)
    (hsword : c'.sword = c.sword) (hsbox : c'.sbox = c.sbox) : c' = c := by
  cases c
  cases c'
  exact KeyCtx.mk.injEq .. ▸ ⟨hvalid, hkeysz, hsubkey, hsword, hsbox⟩

section
variable {key key' : Vector Word 8} {k : Nat} (h : ∀ i, i < 2 * k → keyWord key' i = keyWord key i)
include h

theorem evenWords_congr : evenWords key' k = evenWords key k :=
  List.map_congr_left fun i hi => h _ (by have := List.mem_range.mp hi; omega)

theorem oddWords_congr : oddWords key' k = oddWords key k :=
  List.map_congr_left fun i hi => h _ (by have := List.mem_range.mp hi; omega)

theorem swordOf_congr {c : Nat} (hc : c < k) : swordOf key' c = swordOf key c := by
  rw [swordOf, swordOf, h (2 * c) (by omega), h (2 * c + 1) (by omega)]

theorem slist_congr : slist key' k = slist key k :=
  congrArg List.reverse (List.map_congr_left fun _ hc => swordOf_congr h (List.mem_range.mp hc))

theorem swordReg_congr (c : Nat) : swordReg key' k c = swordReg key k c :=
  ite_congr rfl (fun hc => swordOf_congr h hc) fun _ => rfl

theorem subkeyOf_congr (mds : Tables) : subkeyOf mds key' k = subkeyOf mds key k := by
  funext n
  simp only [subkeyOf, scheduleA, scheduleB, evenWords_congr h, oddWords_congr h]

/-- The key schedule reads the first `2 * k` key words only (R186 to R189). -/
theorem keySchedule_congr (mds : Tables) : keySchedule mds key' k = keySchedule mds key k := by
  have hsubkey : (keySchedule mds key' k).subkey = (keySchedule mds key k).subkey := Vector.ext fun n hn => by
    rw [KeySchedule.keySchedule_subkey mds key' k n hn, KeySchedule.keySchedule_subkey mds key k n hn, subkeyOf_congr h]
  refine keyCtx_eq rfl rfl hsubkey ?_ ?_
  · simp only [keySchedule, swordReg_congr h]
  · simp only [keySchedule, slist_congr h]

end

/-- Settles O31: both contexts are the key schedule of the same key words through the constant tables. -/
theorem contextDependsOnTheKeyBytesOnly : Obligations.ContextDependsOnTheKeyBytesOnly := by
  intro s s' k ht ht' hm hm' hk hlen hkey
  have hchunks := KeySchedule.keyChunks_of_mem hk
  exact ⟨_, _, KeySchedule.exec_keysched_eq ht hm hchunks, KeySchedule.exec_keysched_eq ht' hm' (hlen ▸ hchunks),
    keySchedule_congr hkey mdsTables⟩

/-! ### The message round trip -/

/-- MSGDEC's function undoes MSGENC's: the IV is the first block, CBC decryption undoes CBC encryption, and unpad undoes pad. -/
theorem openMessage_sealMessage (c : KeyCtx) (iv : Quad) (m : List Byte) : openMessage c (sealMessage c iv m) = .ok m := by
  rw [openMessage, sealMessage, quadOfBytes_take, List.drop_left' (quadBytes_length iv), blocksOf_blocksBytes,
    Chaining.cbcDecryptionInvertsEncryption, blocksBytes_blocksOf_padBytes]
  exact (Chaining.unpadAcceptsExactlyPaddedMessages m).2.2

/-- The output that a message command leaves in OUTBUF (R268). -/
theorem bytesAt_putOutput_finish (s : State) (out : List Byte) (c : ErrCode) :
    ((putOutput s out).finish c).bytesAt outbufBase out.length = out :=
  bytesAt_storeBytes s outbufBase out

/-- OUTLEN holds the length of an output that fits OUTBUF, since 32 bits hold BUF_BYTES (R7, R42). -/
theorem putOutput_finish_outlen (s : State) {out : List Byte} (c : ErrCode) (h : out.length ≤ s.params.bufBytes) :
    ((putOutput s out).finish c).outlen.toNat = out.length := by
  have := HostBus.bufBytes_le s.params
  exact Nat.mod_eq_of_lt (by omega)

/-- MSGENC with a key context and room writes the sealed message. -/
theorem exec_msgenc_of_fits {s : State} (ht : s.taint = false) (hv : s.ctx.valid = true)
    (h : (sealMessage s.ctx s.iv (s.inbuf s.msgLen)).length ≤ s.params.bufBytes) :
    exec .msgenc s = .next ((putOutput s (sealMessage s.ctx s.iv (s.inbuf s.msgLen))).finish .none) := by
  rw [sealMessage_length, inbuf_length] at h
  exact Chaining.exec_of_ok (i := .msgenc) rfl ht (Chaining.msgencBody_fits hv (by omega))

/-- MSGDEC of a sealed message writes the message. -/
theorem exec_msgdec_of_sealed {u : State} {iv : Quad} {m : List Byte} (ht : u.taint = false) (hv : u.ctx.valid = true)
    (hfits : u.msgLen ≤ u.params.bufBytes) (hin : u.inbuf u.msgLen = sealMessage u.ctx iv m) :
    exec .msgdec u = .next ((putOutput u m).finish .none) := by
  have hlen : u.msgLen = 16 * (m.length / 16) + 32 := by rw [← sealMessage_length u.ctx iv m, ← hin, inbuf_length]
  refine Chaining.exec_of_ok (i := .msgdec) rfl ht ?_
  rw [Chaining.msgdecBody_blocks hv hfits (by omega) (by omega), hin, openMessage_sealMessage]
  rfl

/-- Settles O54: MSGENC leaves the sealed message and its length, and MSGDEC opens it under the same key context. -/
theorem msgdecRecoversWhatMsgencSealed : Obligations.MsgdecRecoversWhatMsgencSealed := by
  intro s u ht hv hfits htu hctx hfitsu
  have hm : (s.inbuf s.msgLen).length = s.msglen.toNat := inbuf_length s _
  have hlen := sealMessage_length s.ctx s.iv (s.inbuf s.msgLen)
  rw [hm] at hlen
  have houtlen := putOutput_finish_outlen s .none (hlen.trans_le hfits)
  refine ⟨_, exec_msgenc_of_fits ht hv (hlen.trans_le hfits), fun hmsglen hin => ?_⟩
  have hmsg : u.msgLen = (sealMessage s.ctx s.iv (s.inbuf s.msgLen)).length :=
    (congrArg BitVec.toNat hmsglen).trans houtlen
  rw [houtlen, bytesAt_putOutput_finish, ← hmsg, ← hctx] at hin
  have hdec := exec_msgdec_of_sealed htu (hctx ▸ hv) (by rw [hmsg, hlen]; exact hfitsu) hin
  refine ⟨_, hdec, rfl, ?_, ?_⟩
  · change BitVec.ofNat 32 (s.inbuf s.msgLen).length = s.msglen
    rw [hm, BitVec.ofNat_toNat, BitVec.setWidth_eq]
  · have hout := bytesAt_putOutput_finish u (s.inbuf s.msgLen) .none
    rwa [hm] at hout

/-! ### The Q permutations -/

/-- The high and the low nibble of a byte, as R180 takes it apart. -/
def nibbles (x : Byte) : Nibble × Nibble := (x.extractLsb' 4 4, x.extractLsb' 0 4)

/-- The byte that R180 joins from a pair of nibbles. -/
def joinNibbles (p : Nibble × Nibble) : Byte := p.2 ++ p.1

/-- The linear mixing of R180, done before each pair of lookups. -/
def mixNibbles (p : Nibble × Nibble) : Nibble × Nibble := (p.1 ^^^ p.2, p.1 ^^^ p.2.rotateRight 1 ^^^ (p.1 <<< 3))

/-- The inverse of the mixing: xor with the rotated first nibble leaves `a ^^^ a >>> 1`, the Gray code of `a`. -/
def unmixNibbles (p : Nibble × Nibble) : Nibble × Nibble :=
  let gray := p.2 ^^^ p.1.rotateRight 1
  let a := gray ^^^ gray >>> 1 ^^^ gray >>> 2 ^^^ gray >>> 3
  (a, a ^^^ p.1)

theorem nibbles_injective : Function.Injective nibbles :=
  have h : ∀ x : Byte, (nibbles x).1 ++ (nibbles x).2 = x := by decide +kernel
  Function.LeftInverse.injective (g := fun p : Nibble × Nibble => (p.1 ++ p.2 : Byte)) h

theorem joinNibbles_injective : Function.Injective joinNibbles :=
  have h : ∀ a b : Nibble, (nibbles (joinNibbles (a, b))).swap = (a, b) := by decide +kernel
  Function.LeftInverse.injective (g := fun x => (nibbles x).swap) fun p => h p.1 p.2

theorem mixNibbles_injective : Function.Injective mixNibbles :=
  have h : ∀ a b : Nibble, unmixNibbles (mixNibbles (a, b)) = (a, b) := by decide +kernel
  Function.LeftInverse.injective (g := unmixNibbles) fun p => h p.1 p.2

section
variable {t0 t1 t2 t3 : List Nibble}

/-- R180's function: twice a mixing and two lookups. -/
theorem qperm_eq (t0 t1 t2 t3 : List Nibble) : qperm t0 t1 t2 t3 =
    joinNibbles ∘ Prod.map (nibbleAt t2) (nibbleAt t3) ∘ mixNibbles ∘ Prod.map (nibbleAt t0) (nibbleAt t1) ∘ mixNibbles ∘
      nibbles := rfl

/-- It is a permutation where its four tables are: each of its layers is injective, and there are finitely many bytes. -/
theorem qperm_bijective (h0 : Function.Injective (nibbleAt t0)) (h1 : Function.Injective (nibbleAt t1))
    (h2 : Function.Injective (nibbleAt t2)) (h3 : Function.Injective (nibbleAt t3)) :
    Function.Bijective (qperm t0 t1 t2 t3) := by
  rw [qperm_eq]
  exact Finite.injective_iff_bijective.mp (joinNibbles_injective.comp ((h2.prodMap h3).comp (mixNibbles_injective.comp
    ((h0.prodMap h1).comp (mixNibbles_injective.comp nibbles_injective)))))

/-- A table whose 16 entries are different looks up injectively. -/
theorem nibbleAt_injective {t : List Nibble} (hl : t.length = 16) (hd : t.Nodup) : Function.Injective (nibbleAt t) := by
  intro a b h
  have ha : a.toNat < t.length := hl ▸ a.isLt
  have hb : b.toNat < t.length := hl ▸ b.isLt
  rw [nibbleAt, nibbleAt, List.getD_eq_getElem _ _ ha, List.getD_eq_getElem _ _ hb] at h
  exact BitVec.eq_of_toNat_eq ((hd.getElem_inj_iff).mp h)

end

theorem q0_bijective : Function.Bijective q0 :=
  qperm_bijective (nibbleAt_injective rfl (by decide)) (nibbleAt_injective rfl (by decide))
    (nibbleAt_injective rfl (by decide)) (nibbleAt_injective rfl (by decide))

theorem q1_bijective : Function.Bijective q1 :=
  qperm_bijective (nibbleAt_injective rfl (by decide)) (nibbleAt_injective rfl (by decide))
    (nibbleAt_injective rfl (by decide)) (nibbleAt_injective rfl (by decide))

/-- Settles O49: the eight nibble tables are permutations, so Q0 and Q1 are, and their entries compute to the spec's lists. -/
theorem qTablesArePermutations : Obligations.QTablesArePermutations :=
  ⟨q0_bijective, q1_bijective, by decide +kernel, by decide +kernel⟩

end Sys2Proof.Proofs.WholeMachine
end
